-- ==== Sys2Proof/Word.lean ====
section
/-! DEFINITION. The word types of the block and the names of its three memories.

Rules: 00_scope.md R10 (bytes, bit numbering), 10_state.md R23 and R35. -/

namespace Sys2Proof

/-- A byte: 8 bits, unsigned (00_scope.md R10). -/
abbrev Byte := BitVec 8

/-- A 16-bit operand: `begin` and `end` of a range (10_state.md R23). -/
abbrev Half := BitVec 16

/-- A 32-bit operand latch or host value (10_state.md R23). -/
abbrev Word := BitVec 32

/-- The memories that have addresses (10_state.md R35; WIRE has none, 20_memory.md R67). -/
inductive Space where
  /-- The source frame store (20_memory.md R61). -/
  | src
  /-- The packed frame buffer (20_memory.md R63). -/
  | fb
  /-- The palette operand buffer (20_memory.md R66). -/
  | pal
  deriving DecidableEq, Repr

end Sys2Proof
end

