-- ==== Sys2Proof/Config.lean ====
section
/-! DEFINITION. The configuration of the block: the constants of 00_scope.md R7, the open parameters of R9, and
the values the spec leaves free (opaque constants: nothing can be proved of what they are). -/

namespace Sys2Proof

/-- `GAMMA_CODE` (41_commands_param.md R142): one byte for each of the four curves, values open. -/
structure GammaTable where
  g10 : Byte
  g18 : Byte
  g22 : Byte
  g25 : Byte
  deriving DecidableEq, Repr, Inhabited

/-- `ADDRMODE_BIT` (41_commands_param.md R160): the bit position of each of the six flags, in argument order. -/
structure AddrBits where
  rowInverse : Nat
  columnInverse : Nat
  rowColumnSwap : Nat
  rowRefreshInverse : Nat
  columnRefreshInverse : Nat
  rgbInverse : Nat
  deriving DecidableEq, Repr

/-- The record `Config` (00_scope.md R7) with the open parameters of R9. Plain data. -/
structure Config where
  /-- `PANEL_W` -/
  panelW : Nat
  /-- `PANEL_H` -/
  panelH : Nat
  /-- `CROP_TOP` -/
  cropTop : Nat
  /-- `CROP_LEFT` -/
  cropLeft : Nat
  /-- `CROP_H` -/
  cropH : Nat
  /-- `CROP_W` -/
  cropW : Nat
  /-- `SPI_HZ` -/
  spiHz : Nat
  /-- `SPI_MODE` -/
  spiMode : Nat
  /-- `T_RST_LOW_MS` -/
  tRstLowMs : Nat
  /-- `T_RST_WAIT_MS` -/
  tRstWaitMs : Nat
  /-- `T_SWRESET_WAIT_MS` -/
  tSwresetWaitMs : Nat
  /-- `DC_COMMAND_LEVEL` (30_encoding.md R93): `false` is 0. -/
  dcCommandLevel : Bool
  /-- `ADDRMODE_BIT` -/
  addrBit : AddrBits
  /-- `GAMMA_CODE` -/
  gamma : GammaTable
  /-- `SRC_CAP` -/
  srcCap : Nat
  /-- `FB_CAP` -/
  fbCap : Nat
  deriving DecidableEq, Repr

/-- `FRAME_BYTES = PANEL_H * PANEL_W * 3` (00_scope.md R7). -/
def Config.frameBytes (c : Config) : Nat := c.panelH * c.panelW * 3

/-- The default `ADDRMODE_BIT` table of 41_commands_param.md R160: bits 7 down to 2 in argument order, the third
and fourth flags exchanged. -/
def AddrBits.default : AddrBits where
  rowInverse := 7
  columnInverse := 6
  rowColumnSwap := 4
  rowRefreshInverse := 5
  columnRefreshInverse := 3
  rgbInverse := 2

/-- The production values of 00_scope.md R7 and the decided defaults of R93 and R160; the open parameters
(`GAMMA_CODE`, `SRC_CAP`, `FB_CAP`) are arguments, as R9 asks. -/
def Config.production (gamma : GammaTable) (srcCap fbCap : Nat) : Config where
  panelW := 128
  panelH := 160
  cropTop := 0
  cropLeft := 33
  cropH := 300
  cropW := 375
  spiHz := 15000000
  spiMode := 0
  tRstLowMs := 10
  tRstWaitMs := 120
  tSwresetWaitMs := 120
  dcCommandLevel := false
  addrBit := AddrBits.default
  gamma := gamma
  srcCap := srcCap
  fbCap := fbCap

/-- A production configuration: R7's constants with any values of the open parameters. -/
abbrev Config.IsProduction (c : Config) : Prop := c = Config.production c.gamma c.srcCap c.fbCap

/-- FREE VALUE: the four gamma codes of this hardware (41_commands_param.md R142, D4). Log entry 1. -/
opaque Config.openGamma : GammaTable

/-- FREE VALUE: `SRC_CAP` of this hardware (92_eei_decisions.md D34). Log entry 1. -/
opaque Config.openSrcCap : Nat

/-- FREE VALUE: `FB_CAP` of this hardware (92_eei_decisions.md D34). Log entry 1. -/
opaque Config.openFbCap : Nat

/-- FREE VALUE: what a byte that nothing has written since reset reads as (20_memory.md R73, U7): any value, one
per memory and address. Log entry 5. -/
opaque Config.unwrittenByte : Space → Nat → Byte

/-- FREE VALUE: what a host read of the write-only register `OP` returns (10_state.md R33 gives no value).
Log entry 17. -/
opaque Config.opReadValue : Word

/-- The configuration of this hardware: production constants, open parameters free. -/
def Config.hardware : Config :=
  Config.production Config.openGamma Config.openSrcCap Config.openFbCap

end Sys2Proof
end

