-- ==== Sys2Proof/Machine/Command.lean ====
section
/-! DEFINITION. A panel command with its arguments, and the two sub-modes of the wire: the types the wire
encoding of 30_encoding.md is written over. -/

namespace Sys2Proof.Machine

/-- Command mode and data mode (30_encoding.md R93). -/
inductive Mode where
  | command
  | data
  deriving DecidableEq, Repr

/-- A byte group with its mode: one step of `encode`'s list (30_encoding.md R92). -/
abbrev Group := Mode × List Byte

/-- The six flags of setAddressMode (41_commands_param.md R159). -/
structure AddressFlags where
  rowInverse : Bool
  columnInverse : Bool
  rowColumnSwap : Bool
  rowRefreshInverse : Bool
  columnRefreshInverse : Bool
  rgbInverse : Bool
  deriving DecidableEq, Repr

/-- A panel command with its arguments, in the function-call form of 30_encoding.md R98 and R112. -/
inductive Command where
  | reset
  | sleepIn
  | sleepOut
  | invertOff
  | invertOn
  /-- The curve as ten times the gamma value (41_commands_param.md R141). -/
  | setGamma (curve : Byte)
  | displayOff
  | displayOn
  | setColumnRange (first last : Half)
  | setRowRange (first last : Half)
  | writeMemory (payload : List Byte)
  /-- `r[32]`, `g[64]`, `b[32]` (41_commands_param.md R155). -/
  | setPalette (r g b : List Byte)
  | tearingEffectOff
  | tearingEffectOn
  | setAddressMode (flags : AddressFlags)
  | setColorMode (bitsPerPixel : Byte)
  deriving DecidableEq, Repr

end Sys2Proof.Machine
end

