-- ==== Sys2Proof/Syntax.lean ====
section
/-! DEFINITION. The operations of the block, one constructor per row of spec/opcode_table.json, in the table's
order. Operands are no part of a request: they are latches and memories (30_encoding.md R110). -/

namespace Sys2Proof

/-- An operation a host can request (00_scope.md R2). -/
inductive Instr where
  /-- 0x01, 40_commands_plain.md R121 -/
  | reset
  /-- 0x10, R122 -/
  | sleepIn
  /-- 0x11, R123 -/
  | sleepOut
  /-- 0x20, R124 -/
  | invertOff
  /-- 0x21, R125 -/
  | invertOn
  /-- 0x26, 41_commands_param.md R141 -/
  | setGamma
  /-- 0x28, 40_commands_plain.md R126 -/
  | displayOff
  /-- 0x29, R127 -/
  | displayOn
  /-- 0x2A, 41_commands_param.md R145 -/
  | setColumnRange
  /-- 0x2B, R147 -/
  | setRowRange
  /-- 0x2C, R150 -/
  | writeMemory
  /-- 0x2D, R155 -/
  | setPalette
  /-- 0x34, 40_commands_plain.md R128 -/
  | tearingEffectOff
  /-- 0x35, R129 -/
  | tearingEffectOn
  /-- 0x36, 41_commands_param.md R159 -/
  | setAddressMode
  /-- 0x3A, R164 -/
  | setColorMode
  /-- 0xE0, 44_streamer.md R203 -/
  | openInit
  /-- 0xE1, 42_scaler.md R170 -/
  | resample
  /-- 0xE2, 44_streamer.md R211 -/
  | play
  /-- 0xE3, R222 -/
  | stop
  /-- 0xE4, R226 -/
  | close
  deriving DecidableEq, Repr

end Sys2Proof
end

