-- ==== Sys2Proof/WellFormed.lean ====
section
/-! DEFINITION. Well-formedness: of a configuration (00_scope.md R8, 41_commands_param.md R161), of a panel
command's shape (30_encoding.md R91), of an operation. -/

namespace Sys2Proof

/-- A bit table is injective into {2, ..., 7} (41_commands_param.md R161). -/
def AddrBits.wf (b : AddrBits) : Bool :=
  let l := [b.rowInverse, b.columnInverse, b.rowColumnSwap, b.rowRefreshInverse, b.columnRefreshInverse, b.rgbInverse]
  l.all (fun k => decide (2 ≤ k) && decide (k ≤ 7)) && decide l.Nodup

/-- Well-formedness of a configuration (00_scope.md R8) with the table condition of R161. -/
def Config.wf (c : Config) : Bool :=
  decide (2 ≤ c.panelW) && decide (2 ≤ c.panelH) && decide (c.panelW ≤ 65536) && decide (c.panelH ≤ 65536) &&
    decide (1 ≤ c.cropW) && decide (1 ≤ c.cropH) && c.addrBit.wf

/-- A command has the shape its signature gives it: the three palette arrays have their fixed sizes
(41_commands_param.md R155); every other argument has its size in its type. -/
def Machine.Command.wf : Machine.Command → Bool
  | .setPalette r g b => decide (r.length = 32) && decide (g.length = 64) && decide (b.length = 32)
  | _ => true

/-- Every operation is well formed: a request carries no operand (30_encoding.md R110), so there is nothing an
ill-formed term of `Instr` could be. -/
def Instr.wf (_ : Instr) : Bool := true

end Sys2Proof
end

