-- ==== Sys2Proof/Decode.lean ====
section
/-! DEFINITION. The host encoding (30_encoding.md R110): decoder, total on bytes, and encoder. The wire encoding
(R90 to R97): the encoder the block has, and the reader of byte groups that R97's round trip asks for. -/

namespace Sys2Proof

/-- Why a code is refused by the decoder. -/
inductive Reject where
  /-- The byte is no `OP` code of 30_encoding.md R110. -/
  | unknownCode (code : Byte)
  deriving DecidableEq, Repr

/-- What the decoder reads from a code. -/
inductive Decoded where
  | instr (i : Instr)
  | rejected (why : Reject)
  deriving DecidableEq, Repr

/-- The host decoder (30_encoding.md R98, R110). -/
def decodeOp (code : Byte) : Decoded :=
  match code.toNat with
  | 0x01 => .instr .reset
  | 0x10 => .instr .sleepIn
  | 0x11 => .instr .sleepOut
  | 0x20 => .instr .invertOff
  | 0x21 => .instr .invertOn
  | 0x26 => .instr .setGamma
  | 0x28 => .instr .displayOff
  | 0x29 => .instr .displayOn
  | 0x2A => .instr .setColumnRange
  | 0x2B => .instr .setRowRange
  | 0x2C => .instr .writeMemory
  | 0x2D => .instr .setPalette
  | 0x34 => .instr .tearingEffectOff
  | 0x35 => .instr .tearingEffectOn
  | 0x36 => .instr .setAddressMode
  | 0x3A => .instr .setColorMode
  | 0xE0 => .instr .openInit
  | 0xE1 => .instr .resample
  | 0xE2 => .instr .play
  | 0xE3 => .instr .stop
  | 0xE4 => .instr .close
  | _ => .rejected (.unknownCode code)

/-- The host encoder: the code written to `OP` (30_encoding.md R110). -/
def encodeOp : Instr → Byte
  | .reset => 0x01
  | .sleepIn => 0x10
  | .sleepOut => 0x11
  | .invertOff => 0x20
  | .invertOn => 0x21
  | .setGamma => 0x26
  | .displayOff => 0x28
  | .displayOn => 0x29
  | .setColumnRange => 0x2A
  | .setRowRange => 0x2B
  | .writeMemory => 0x2C
  | .setPalette => 0x2D
  | .tearingEffectOff => 0x34
  | .tearingEffectOn => 0x35
  | .setAddressMode => 0x36
  | .setColorMode => 0x3A
  | .openInit => 0xE0
  | .resample => 0xE1
  | .play => 0xE2
  | .stop => 0xE3
  | .close => 0xE4

/-- The operation the decoder reads from a table word: every row of the table is one byte. -/
def decodeTableWord (nbits w : Nat) : Option Instr :=
  if nbits = 8 then
    match decodeOp (BitVec.ofNat 8 w) with
    | .instr i => some i
    | .rejected _ => none
  else none

namespace Machine

/-- `hi(v) = v[15:8]` (00_scope.md R10). -/
def hi (v : Half) : Byte := v.extractLsb' 8 8

/-- `lo(v) = v[7:0]` (00_scope.md R10). -/
def lo (v : Half) : Byte := v.extractLsb' 0 8

/-- The opcode of a command (30_encoding.md R98). -/
def opcodeOf : Command → Byte
  | .reset => 0x01
  | .sleepIn => 0x10
  | .sleepOut => 0x11
  | .invertOff => 0x20
  | .invertOn => 0x21
  | .setGamma _ => 0x26
  | .displayOff => 0x28
  | .displayOn => 0x29
  | .setColumnRange _ _ => 0x2A
  | .setRowRange _ _ => 0x2B
  | .writeMemory _ => 0x2C
  | .setPalette _ _ _ => 0x2D
  | .tearingEffectOff => 0x34
  | .tearingEffectOn => 0x35
  | .setAddressMode _ => 0x36
  | .setColorMode _ => 0x3A

/-- The sixteen opcodes (30_encoding.md R98). -/
def wireOpcodes : List Byte :=
  [0x01, 0x10, 0x11, 0x20, 0x21, 0x26, 0x28, 0x29, 0x2A, 0x2B, 0x2C, 0x2D, 0x34, 0x35, 0x36, 0x3A]

/-- Range validity (41_commands_param.md R144): `begin`, `end` at most `maxAddr`, and `begin <= end`. -/
def validRange (first last : Half) (maxAddr : Nat) : Bool :=
  decide (first.toNat ≤ maxAddr) && decide (last.toNat ≤ maxAddr) && decide (first.toNat ≤ last.toNat)

/-- `GAMMA_CODE` on the four curves, none elsewhere (41_commands_param.md R141, R142). -/
def gammaCode (t : GammaTable) (curve : Byte) : Option Byte :=
  match curve.toNat with
  | 10 => some t.g10
  | 18 => some t.g18
  | 22 => some t.g22
  | 25 => some t.g25
  | _ => none

/-- The colour-mode code (41_commands_param.md R164, R165). -/
def colorCode (bpp : Byte) : Option Byte :=
  match bpp.toNat with
  | 12 => some 0x03
  | 16 => some 0x05
  | 18 => some 0x06
  | _ => none

/-- What one flag adds to the address-mode byte (41_commands_param.md R159). -/
def flagBit (f : Bool) (k : Nat) : Nat := if f then 2 ^ k else 0

/-- The address-mode byte (41_commands_param.md R159, R160). -/
def addressByte (t : AddrBits) (f : AddressFlags) : Byte :=
  BitVec.ofNat 8 (flagBit f.rowInverse t.rowInverse + flagBit f.columnInverse t.columnInverse +
    flagBit f.rowColumnSwap t.rowColumnSwap + flagBit f.rowRefreshInverse t.rowRefreshInverse +
    flagBit f.columnRefreshInverse t.columnRefreshInverse + flagBit f.rgbInverse t.rgbInverse)

/-- A red or blue palette entry is at most 0x3F (41_commands_param.md R157). -/
def redBlueOk (v : Byte) : Bool := decide (v.toNat ≤ 0x3F)

/-- A green palette entry is at most 0x7F (41_commands_param.md R157). -/
def greenOk (v : Byte) : Bool := decide (v.toNat ≤ 0x7F)

/-- `valid(k, args)` (41_commands_param.md R141, R144, R145, R147, R155, R159, R164; the nine plain commands are
always valid). writeMemory's bound check is on the operand latches, not on the payload (R150), and stands in
`payloadCommand`. -/
def validCommand (c : Config) : Command → Bool
  | .setGamma curve => (gammaCode c.gamma curve).isSome
  | .setColumnRange first last => validRange first last (c.panelW - 1)
  | .setRowRange first last => validRange first last (c.panelH - 1)
  | .setPalette r g b => r.all redBlueOk && g.all greenOk && b.all redBlueOk
  | .setColorMode bpp => (colorCode bpp).isSome
  | .reset => true
  | .sleepIn => true
  | .sleepOut => true
  | .invertOff => true
  | .invertOn => true
  | .displayOff => true
  | .displayOn => true
  | .writeMemory _ => true
  | .tearingEffectOff => true
  | .tearingEffectOn => true
  | .setAddressMode _ => true

/-- The four data bytes of a range (41_commands_param.md R145, R147; 20_memory.md R68). -/
def rangeBytes (first last : Half) : List Byte := [hi first, lo first, hi last, lo last]

/-- `params(k, args)` (30_encoding.md R92, R96). -/
def paramBytes (c : Config) : Command → List Byte
  | .setGamma curve => (gammaCode c.gamma curve).toList
  | .setColumnRange first last => rangeBytes first last
  | .setRowRange first last => rangeBytes first last
  | .writeMemory payload => payload
  | .setPalette r g b => r ++ g ++ b
  | .setAddressMode flags => [addressByte c.addrBit flags]
  | .setColorMode bpp => (colorCode bpp).toList
  | .reset => []
  | .sleepIn => []
  | .sleepOut => []
  | .invertOff => []
  | .invertOn => []
  | .displayOff => []
  | .displayOn => []
  | .tearingEffectOff => []
  | .tearingEffectOn => []

/-- The groups of a command once it is valid: opcode group, then a data group if there are parameters
(30_encoding.md R90, R92). -/
def groupsOf (c : Config) (k : Command) : List Group :=
  match paramBytes c k with
  | [] => [(.command, [opcodeOf k])]
  | p :: ps => [(.command, [opcodeOf k]), (.data, p :: ps)]

/-- The pure encoding function (30_encoding.md R92): `none` is ValidationError, nothing to send. -/
def encode (c : Config) (k : Command) : Option (List Group) :=
  if validCommand c k then some (groupsOf c k) else none

/-- Reading the range parameters back (30_encoding.md R97). -/
def decodeRange : List Byte → Option (Half × Half)
  | [d0, d1, d2, d3] => some (d0 ++ d1, d2 ++ d3)
  | _ => none

/-- The curve of a gamma code, if the table has it; the first of R141's order when the table has it twice. -/
def gammaCurve (t : GammaTable) (v : Byte) : Option Byte :=
  if v = t.g10 then some 10 else if v = t.g18 then some 18 else if v = t.g22 then some 22
  else if v = t.g25 then some 25 else none

/-- The bits per pixel of a colour-mode code (41_commands_param.md R165). -/
def colorBits (v : Byte) : Option Byte :=
  match v.toNat with
  | 0x03 => some 12
  | 0x05 => some 16
  | 0x06 => some 18
  | _ => none

/-- The flags of an address-mode byte (41_commands_param.md R160). -/
def addressFlags (t : AddrBits) (v : Byte) : AddressFlags where
  rowInverse := v.getLsbD t.rowInverse
  columnInverse := v.getLsbD t.columnInverse
  rowColumnSwap := v.getLsbD t.rowColumnSwap
  rowRefreshInverse := v.getLsbD t.rowRefreshInverse
  columnRefreshInverse := v.getLsbD t.columnRefreshInverse
  rgbInverse := v.getLsbD t.rgbInverse

/-- Reading an opcode group without a data group (30_encoding.md R91, formats W0 and the empty WV). -/
def readPlain (op : Byte) : Option Command :=
  match op.toNat with
  | 0x01 => some .reset
  | 0x10 => some .sleepIn
  | 0x11 => some .sleepOut
  | 0x20 => some .invertOff
  | 0x21 => some .invertOn
  | 0x28 => some .displayOff
  | 0x29 => some .displayOn
  | 0x2C => some (.writeMemory [])
  | 0x34 => some .tearingEffectOff
  | 0x35 => some .tearingEffectOn
  | _ => none

/-- The byte of a one-byte data group (30_encoding.md R91, format W1). -/
def onlyByte : List Byte → Option Byte
  | [p] => some p
  | _ => none

/-- Reading an opcode group with its data group (30_encoding.md R91, formats W1, W4, W128, WV). -/
def readParam (c : Config) (op : Byte) (ps : List Byte) : Option Command :=
  match op.toNat with
  | 0x26 => ((onlyByte ps).bind (gammaCurve c.gamma)).map .setGamma
  | 0x2A => (decodeRange ps).map (fun r => .setColumnRange r.1 r.2)
  | 0x2B => (decodeRange ps).map (fun r => .setRowRange r.1 r.2)
  | 0x2C => if ps = [] then none else some (.writeMemory ps)
  | 0x2D =>
    if ps.length = 128 then some (.setPalette (ps.take 32) ((ps.drop 32).take 64) (ps.drop 96)) else none
  | 0x36 => (onlyByte ps).map (fun v => .setAddressMode (addressFlags c.addrBit v))
  | 0x3A => ((onlyByte ps).bind colorBits).map .setColorMode
  | _ => none

/-- The command a list of groups spells, if any. The block has no such reader (30_encoding.md R97); it is there to
say that the wire encoding drops nothing. -/
def readGroups (c : Config) : List Group → Option Command
  | [(.command, [op])] => readPlain op
  | [(.command, [op]), (.data, ps)] => readParam c op ps
  | _ => none

end Machine

end Sys2Proof
end

