-- ==== Sys2Proof/Machine/State.lean ====
section
/-! DEFINITION. The state of the block as plain data, its value after reset, and the reasons a step can stop.

Rules: 10_state.md R20 to R49, 20_memory.md R60 to R67, 70_reset_and_hazards.md R270, R275. The fields the model
adds of its own (the environment, the host's script, the transfer in progress) are named in INVENTORY.md. -/

namespace Sys2Proof.Machine

/-- The two control lines (10_state.md R28, R45; 44_streamer.md R205). -/
inductive Line where
  /-- The mode line DC. -/
  | dc
  /-- The reset line RST. -/
  | rst
  deriving DecidableEq, Repr

/-- A transport primitive with its arguments, and the event its call appends to the wire trace
(10_state.md R45, R46). -/
inductive Event where
  /-- `tp.open()`, event `Open(SPI_HZ, SPI_MODE)` -/
  | openCh (hz mode : Nat)
  /-- `tp.level(line, v)` -/
  | level (line : Line) (v : Bool)
  /-- `tp.write(l)` -/
  | write (l : List Byte)
  /-- `tp.pause(ms)` -/
  | pause (ms : Nat)
  /-- `tp.sleep_until(sec, nsec)` -/
  | sleepUntil (sec nsec : Nat)
  /-- `tp.close()`, event `Close` -/
  | closeCh
  deriving DecidableEq, Repr

/-- The phases of one frame (10_state.md R24). -/
inductive Phase where
  | col
  | row
  | mem
  | advance
  | sleep
  deriving DecidableEq, Repr

/-- The sequencer position `seq` (10_state.md R24). -/
inductive Seq where
  | idle
  | cmd
  | init (k : Nat)
  | resample (r c : Nat)
  | playCheck
  | playInit (k : Nat)
  | playFrame (i : Nat) (ph : Phase)
  | teardown
  deriving DecidableEq, Repr

/-- The error classes (60_exceptions.md R240, R241). `DecodeError` has a code but no cause in the block. -/
inductive ErrClass where
  | usage
  | validation
  | io
  | corruptInput
  | decode
  deriving DecidableEq, Repr

/-- How the environment answers a call (10_state.md R45, R47): `wait` is no answer yet. -/
inductive ReplyKind where
  | ok
  /-- `fail`; for a write, how many bytes of the group had left (93_implementation_defined.md U5). -/
  | fail (sent : Nat)
  | wait
  deriving DecidableEq, Repr

/-- One answer of the environment, with the nanoseconds the monotonic clock moves by (10_state.md R48). -/
structure Reply where
  kind : ReplyKind
  dtNs : Nat
  deriving DecidableEq, Repr

/-- The environment as plain data: the answers to come, the answer given for ever once they are used up, and the
monotonic clock in nanoseconds. Log entry 7. -/
structure Env where
  replies : List Reply
  rest : Reply
  nowNs : Nat
  deriving DecidableEq, Repr

/-- The operand latches (10_state.md R23). -/
structure Latches where
  /-- 0x00 `ARG_BEGIN` -/
  argBegin : Half
  /-- 0x01 `ARG_END` -/
  argEnd : Half
  /-- 0x02 `ARG_CURVE` -/
  argCurve : Byte
  /-- 0x03 `ARG_BPP` -/
  argBpp : Byte
  /-- 0x04 `ARG_FLAGS` -/
  argFlags : BitVec 6
  /-- 0x05 `ARG_ADDR` -/
  argAddr : Word
  /-- 0x06 `ARG_LEN` -/
  argLen : Word
  /-- 0x07 `ARG_SLOT` -/
  argSlot : Word
  /-- 0x08 `SRC_H` -/
  srcH : Word
  /-- 0x09 `SRC_W` -/
  srcW : Word
  /-- 0x0A `SRC_PITCH` -/
  srcPitch : Word
  /-- 0x0B `FB_LEN` -/
  fbLen : Word
  /-- 0x0C `PERIOD_MS` -/
  periodMs : Word
  deriving DecidableEq, Repr

/-- The datapath registers of SCALER and PACKER (10_state.md R25). -/
structure Datapath where
  r : Byte
  c : Byte
  ch : BitVec 2
  xn : Word
  yn : Word
  x0 : Word
  x1 : Word
  y0 : Word
  y1 : Word
  fx : Byte
  fy : Byte
  n : BitVec 23
  q : BitVec 6
  deriving DecidableEq, Repr

/-- A move of the host or the platform (70_reset_and_hazards.md R275). Requests, STOP among them, are writes of
register 0x1F (`OP`). -/
inductive HostMove where
  | writeReg (num : Nat) (v : Word)
  | readReg (num : Nat)
  | writeMem (sp : Space) (a : Nat) (v : Byte)
  | readMem (sp : Space) (a : Nat)
  /-- Assert the `reset` input (R270). -/
  | assertReset
  deriving DecidableEq, Repr

/-- Who moves next: the host with a move, or the block. Log entry 6. -/
inductive Turn where
  | host (m : HostMove)
  | block
  deriving DecidableEq, Repr

/-- A memory: the bytes written, as address and byte, addresses strictly rising. Log entry 5. -/
abbrev Memory := List Host.Cell

/-- The state of the machine. Plain data. -/
@[ext]
structure State where
  /-- The configuration, a constant (10_state.md R22). Log entry 1. -/
  cfg : Config
  /-- Operand latches (R23). -/
  regs : Latches
  /-- Sequencer position (R24). -/
  seq : Seq
  /-- Datapath of SCALER and PACKER (R25). -/
  dp : Datapath
  /-- `frame_idx` (R26). -/
  frameIdx : Word
  /-- `n_frames` (R26). -/
  nFrames : Word
  /-- `dl_sec` (R26). -/
  dlSec : Nat
  /-- `dl_nsec` (R26). -/
  dlNsec : BitVec 30
  /-- `period_latched` (R26). -/
  periodLatched : Word
  /-- STATUS bit 0 (R28). -/
  busy : Bool
  /-- STATUS bit 1 (R28, R29). -/
  tpOpen : Bool
  /-- STATUS bit 3 (R28). -/
  stopReq : Bool
  /-- STATUS bit 4, the level of the mode line (R28, R30). -/
  dc : Bool
  /-- STATUS bit 5, the level of the reset line (R28). -/
  rst : Bool
  /-- Both control lines are outputs (R45, `tp.open`; R49). -/
  linesOut : Bool
  /-- `ERR` (R31). -/
  err : BitVec 3
  /-- `ERR_OP` (R32). -/
  errOp : Byte
  /-- Host code of the operation that runs (implied by R32). Log entry 14. -/
  runOp : Byte
  /-- SRC (20_memory.md R61). -/
  src : Memory
  /-- FB (R63). -/
  fb : Memory
  /-- PAL (R66). -/
  pal : Memory
  /-- The wire trace (10_state.md R46). -/
  trace : List Event
  /-- The primitives of the present step that have not returned, in order. Log entry 12. -/
  todo : List Event
  /-- The head of `todo` has been called and has not returned; the clock value before which it may not return.
  Log entry 12. -/
  inFlight : Option Nat
  /-- The bytes of a failed write that had left (93_implementation_defined.md U5). Log entry 10. -/
  partialWrite : Option (List Byte)
  /-- Requests held while busy, oldest first (10_state.md R21). Log entry 13. -/
  held : List Byte
  /-- What the last host read returned (70_reset_and_hazards.md R275). Log entry 15. -/
  rdata : Word
  /-- The environment (10_state.md R20, R45, R48). -/
  env : Env
  /-- The turns to come; when there are none the block moves. Log entry 6. -/
  script : List Turn
  deriving DecidableEq, Repr

/-- The faults: the machine stops at a host move the spec gives no address for. -/
inductive Fault where
  /-- A host access to an address outside the memory (20_memory.md R61, R63, R66). Raised by a host move
  `writeMem` or `readMem`; safe: no operation raises it and nothing is claimed after it. -/
  | hostAddress (sp : Space) (a : Nat)
  deriving DecidableEq, Repr

/-- The refusals: no meaning in this model. -/
inductive Refusal where
  /-- An operation whose arm has no meaning yet. Raised by no arm: every operation has its meaning. Safe. -/
  | notModelled (mnemonic : String)
  /-- A host write to a memory while `busy = 1`: "a memory write is no move of the model"
  (70_reset_and_hazards.md R275, R284). Raised by the host move `writeMem`. Unsafe toward a host that makes the
  move (92_eei_decisions.md D30), see log entry 16. -/
  | hostWriteWhileBusy
  deriving DecidableEq, Repr

/-- The operand latches after reset: the spec gives no values (10_state.md R49). Log entry 2. -/
def Latches.reset : Latches where
  argBegin := 0
  argEnd := 0
  argCurve := 0
  argBpp := 0
  argFlags := 0
  argAddr := 0
  argLen := 0
  argSlot := 0
  srcH := 0
  srcW := 0
  srcPitch := 0
  fbLen := 0
  periodMs := 0

/-- The datapath registers after reset: the spec gives no values (10_state.md R49). Log entry 3. -/
def Datapath.reset : Datapath where
  r := 0
  c := 0
  ch := 0
  xn := 0
  yn := 0
  x0 := 0
  x1 := 0
  y0 := 0
  y1 := 0
  fx := 0
  fy := 0
  n := 0
  q := 0

/-- The environment beside a freshly reset block: it answers `ok` at once, the clock stands at 0. Log entry 7. -/
def Env.reset : Env where
  replies := []
  rest := { kind := .ok, dtNs := 0 }
  nowNs := 0

/-- The machine right after reset (10_state.md R49, 70_reset_and_hazards.md R270). -/
def State.reset : State where
  cfg := Config.hardware
  regs := Latches.reset
  seq := .idle
  dp := Datapath.reset
  frameIdx := 0
  nFrames := 0
  dlSec := 0
  dlNsec := 0
  periodLatched := 0
  busy := false
  tpOpen := false
  stopReq := false
  dc := false
  rst := false
  linesOut := false
  err := 0
  errOp := 0
  runOp := 0
  src := []
  fb := []
  pal := []
  trace := []
  todo := []
  inFlight := none
  partialWrite := none
  held := []
  rdata := 0
  env := Env.reset
  script := []

end Sys2Proof.Machine
end

