-- ==== Sys2Proof/Machine/Ops.lean ====
section
/-! DEFINITION. The named operations every meaning is written over: memory, the transport primitives, the teardown,
error entry (the block's one way of taking an exception), completion, admission of a request.

Rules: 20_memory.md R60 to R75, 10_state.md R21 and R45 to R48, 44_streamer.md R225, 60_exceptions.md R245. -/

namespace Sys2Proof.Machine

/-! ### Memory -/

/-- The byte a memory holds at an address, if one was written. -/
def Memory.lookup : Memory → Nat → Option Byte
  | [], _ => none
  | (k, v) :: m, a => if a = k then some v else Memory.lookup m a

/-- Writing one byte, keeping addresses strictly rising. -/
def Memory.store : Memory → Nat → Byte → Memory
  | [], a, v => [(a, v)]
  | (k, w) :: m, a, v =>
    if a < k then (a, v) :: (k, w) :: m
    else if a = k then (a, v) :: m
    else (k, w) :: Memory.store m a v

/-- The canonical form: addresses strictly rising. An unlisted address has no value of its own (its reads are free,
log entry 5), so no entry can equal what an unlisted address reads as. -/
def Memory.wf : Memory → Bool
  | [] => true
  | [_] => true
  | (a, _) :: (b, w) :: m => decide (a < b) && Memory.wf ((b, w) :: m)

/-- Every listed address is below the capacity (20_memory.md R72). -/
def Memory.within (m : Memory) (cap : Nat) : Bool := m.all (fun e => decide (e.1 < cap))

/-- The capacity of a memory in bytes (10_state.md R35, 20_memory.md R66). -/
def capacity (c : Config) : Space → Nat
  | .src => c.srcCap
  | .fb => c.fbCap
  | .pal => 128

/-- The memory of a name. -/
def State.mem (s : State) : Space → Memory
  | .src => s.src
  | .fb => s.fb
  | .pal => s.pal

/-- Replace the memory of a name. -/
def State.setMem (sp : Space) (m : Memory) (s : State) : State :=
  match sp with
  | .src => { s with src := m }
  | .fb => { s with fb := m }
  | .pal => { s with pal := m }

/-- One byte of a memory (00_scope.md R11). A byte nothing has written reads as a free value (20_memory.md R73,
log entry 5). -/
def State.readByte (s : State) (sp : Space) (a : Nat) : Byte :=
  ((s.mem sp).lookup a).getD (Config.unwrittenByte sp a)

/-- Write one byte of a memory (00_scope.md R11). -/
def State.writeByte (sp : Space) (a : Nat) (v : Byte) (s : State) : State :=
  s.setMem sp ((s.mem sp).store a v)

/-- `MemRead(space, a, n)`: `n` bytes in rising address order (00_scope.md R11). -/
def State.readRange (s : State) (sp : Space) (a n : Nat) : List Byte :=
  (List.range n).map (fun i => s.readByte sp (a + i))

/-! ### The transport -/

/-- The level of the mode line in a mode (30_encoding.md R93). -/
def levelOf (c : Config) : Mode → Bool
  | .command => c.dcCommandLevel
  | .data => !c.dcCommandLevel

/-- `emit(steps)` as the primitives it calls: for each group the mode line, then the bytes (30_encoding.md R94). -/
def emission (c : Config) (groups : List Group) : List Event :=
  groups.flatMap (fun g => [.level .dc (levelOf c g.1), .write g.2])

/-- The environment's answer to the present call (10_state.md R45). -/
def Env.reply (e : Env) : Reply :=
  match e.replies with
  | [] => e.rest
  | r :: _ => r

/-- The environment after it answered, with the clock at `now`. -/
def Env.next (e : Env) (now : Nat) : Env := { e with replies := e.replies.tail, nowNs := now }

/-- The seconds part of the clock (10_state.md R48). -/
def Env.nowSec (e : Env) : Nat := e.nowNs / 1000000000

/-- The nanoseconds part of the clock (10_state.md R48), below 10^9. -/
def Env.nowNsec (e : Env) : Nat := e.nowNs % 1000000000

/-- The clock value before which a call may not return: the deadline of a sleep, the call time and the duration of
a pause (44_streamer.md R207, R220); the call time for the others. -/
def wakeTime (p : Event) (now : Nat) : Nat :=
  match p with
  | .pause ms => now + 1000000 * ms
  | .sleepUntil sec nsec => 1000000000 * sec + nsec
  | _ => now

/-- What became of a call. -/
inductive Answer where
  | pending
  | returned
  | failed (sent : Nat)
  deriving DecidableEq, Repr

/-- How an answer of the environment ends a call (10_state.md R45, R47; 60_exceptions.md R243). `pause`,
`sleep_until` and `close` cannot fail; a sleep whose deadline has passed (`due`) returns at once. -/
def answerOf (p : Event) (k : ReplyKind) (due : Bool) : Answer :=
  match p with
  | .pause _ =>
    match k with
    | .wait => .pending
    | _ => .returned
  | .sleepUntil _ _ =>
    match k with
    | .wait => if due then .returned else .pending
    | _ => .returned
  | .closeCh => .returned
  | .openCh _ _ | .level _ _ | .write _ =>
    match k with
    | .ok => .returned
    | .fail sent => .failed sent
    | .wait => .pending

/-- The effect of a primitive that returned `ok` (10_state.md R45, last column). -/
def primEffect (p : Event) (s : State) : State :=
  match p with
  | .openCh _ _ => { s with tpOpen := true, linesOut := true }
  | .level .dc v => { s with dc := v }
  | .level .rst v => { s with rst := v }
  | .closeCh => { s with tpOpen := false }
  | .write _ => s
  | .pause _ => s
  | .sleepUntil _ _ => s

/-- The bytes of a failed write that had left: a prefix the environment chose (U5); other primitives move none. -/
def leftBytes (p : Event) (sent : Nat) (old : Option (List Byte)) : Option (List Byte) :=
  match p with
  | .write l => some (l.take sent)
  | _ => old

/-- Call a primitive: append its event once (10_state.md R45) and mark it in flight. -/
def State.beginCall (p : Event) (s : State) : State :=
  match s.inFlight with
  | some _ => s
  | none => { s with trace := s.trace ++ [p], inFlight := some (wakeTime p s.env.nowNs) }

/-- The environment has answered and moved on. -/
def State.setEnv (e : Env) (s : State) : State := { s with env := e }

/-- No primitive is in flight any more. -/
def State.land (s : State) : State := { s with inFlight := none }

/-- Keep what a failed write had moved (93_implementation_defined.md U5). -/
def State.noteFailure (p : Event) (sent : Nat) (s : State) : State :=
  { s with partialWrite := leftBytes p sent s.partialWrite }

/-- The outcome of one step spent in a primitive. -/
inductive CallResult where
  /-- Not answered: the block stays at this primitive (10_state.md R47). -/
  | pending (s : State)
  | returned (s : State)
  /-- Answered `fail`: IOError is to be raised (10_state.md R47). -/
  | failed (s : State)
  deriving DecidableEq, Repr

/-- One step in the primitive `p`: call it if it is not in flight, take one answer of the environment. A call that
returns leaves the clock at or past its wake time (44_streamer.md R207, R220). -/
def State.call (p : Event) (s : State) : CallResult :=
  let b := s.beginCall p
  let now := s.env.nowNs + s.env.reply.dtNs
  let wake := b.inFlight.getD now
  match answerOf p s.env.reply.kind (decide (wake ≤ now)) with
  | .pending => .pending (b.setEnv (s.env.next now))
  | .returned => .returned (primEffect p (b.setEnv (s.env.next (max now wake))).land)
  | .failed sent => .failed ((b.setEnv (s.env.next now)).land.noteFailure p sent)

/-- Replace the turns to come. -/
def State.setScript (turns : List Turn) (s : State) : State := { s with script := turns }

/-- Replace the primitives of the present position. -/
def State.setTodo (calls : List Event) (s : State) : State := { s with todo := calls }

/-! ### Ends of an operation -/

/-- The end of an operation: `busy <- 0; seq <- IDLE`. -/
def State.complete (s : State) : State :=
  { s with busy := false, seq := .idle, todo := [], inFlight := none }

/-- `teardown(); busy <- 0; seq <- IDLE`, the end of CLOSE, of a consumed STOP and of error entry (44_streamer.md
R225). `tp.close()` is called if the transport is open; like every call it is a step of its own (10_state.md R45), in
the position TEARDOWN, and the operation ends when it has returned. With the transport closed nothing is called and
the operation ends at once (`complete`). -/
def State.teardown (s : State) : State :=
  { s with
    busy := s.tpOpen
    seq := if s.tpOpen then .teardown else .idle
    todo := if s.tpOpen then [.closeCh] else []
    inFlight := none }

/-- The code of an error class (60_exceptions.md R241). -/
def ErrClass.code : ErrClass → BitVec 3
  | .usage => 1
  | .validation => 2
  | .io => 3
  | .corruptInput => 4
  | .decode => 5

/-- Error entry, `raise E` (60_exceptions.md R245), in the order of its pseudocode: the first error is latched with
the running operation's code, `stop_req` is cleared, the teardown runs and ends the operation. Log entry 11. -/
def State.raise (e : ErrClass) (s : State) : State :=
  State.teardown { s with
    err := if s.err = 0 then e.code else s.err
    errOp := if s.err = 0 then s.runOp else s.errOp
    stopReq := false }

/-! ### Admission -/

/-- Hold a request made while busy (10_state.md R21). -/
def State.hold (code : Byte) (s : State) : State := { s with held := s.held ++ [code] }

/-- Acceptance: `busy <- 1`; the running operation's code is kept for `ERR_OP` (10_state.md R28, R32). -/
def State.accept (code : Byte) (s : State) : State := { s with busy := true, runOp := code }

/-- A request other than STOP (10_state.md R21, 60_exceptions.md R247): without effect while halted, held while
busy, else accepted and started. -/
def State.request (code : Byte) (start : State → State) (s : State) : State :=
  if s.err ≠ 0 then s
  else if s.busy then s.hold code
  else start (s.accept code)

/-- A request with a code no operation has (30_encoding.md R111, 60_exceptions.md R242 row 1). -/
def State.unknownRequest (code : Byte) (s : State) : State :=
  s.request code (fun t => t.raise .usage)

end Sys2Proof.Machine
end

