-- ==== Sys2Proof/Machine/Operands.lean ====
section
/-! DEFINITION. Operand forms: how the latches and memories become the arguments of an operation, and the checks on
them. Rules: 10_state.md R23, 20_memory.md R66, 41_commands_param.md R150, R155, R159, 42_scaler.md R170. -/

namespace Sys2Proof.Machine

/-- The six flags of `ARG_FLAGS`, bit 5 down to bit 0 (10_state.md R23). -/
def latchFlags (v : BitVec 6) : AddressFlags where
  rowInverse := v.getLsbD 5
  columnInverse := v.getLsbD 4
  rowColumnSwap := v.getLsbD 3
  rowRefreshInverse := v.getLsbD 2
  columnRefreshInverse := v.getLsbD 1
  rgbInverse := v.getLsbD 0

/-- setPalette's arguments, the 128 bytes of PAL (20_memory.md R66, 41_commands_param.md R155). -/
def State.paletteCommand (s : State) : Command :=
  .setPalette (s.readRange .pal 0 32) (s.readRange .pal 32 64) (s.readRange .pal 96 32)

/-- `ARG_ADDR + ARG_LEN <= FB_CAP` (41_commands_param.md R150). -/
def State.payloadFits (s : State) : Bool :=
  !decide (s.cfg.fbCap < s.regs.argAddr.toNat + s.regs.argLen.toNat)

/-- writeMemory's payload, `MemRead(FB, ARG_ADDR, ARG_LEN)` (41_commands_param.md R150). -/
def State.payload (s : State) : List Byte :=
  s.readRange .fb s.regs.argAddr.toNat s.regs.argLen.toNat

/-- RESAMPLE's check (42_scaler.md R170): the source frame is well formed and fits SRC, the slot fits FB. -/
def frameValid (c : Config) (l : Latches) : Bool :=
  decide (1 ≤ l.srcW.toNat) && decide (1 ≤ l.srcH.toNat) && decide (4 * l.srcW.toNat ≤ l.srcPitch.toNat) &&
    decide ((l.srcH.toNat - 1) * l.srcPitch.toNat + 4 * l.srcW.toNat ≤ c.srcCap) &&
    decide ((l.argSlot.toNat + 1) * c.frameBytes ≤ c.fbCap)

end Sys2Proof.Machine
end

