-- ==== Sys2Proof/Machine/PanelCommands.lean ====
section
/-! DEFINITION. ENCODER: the sixteen panel commands (40_commands_plain.md, 41_commands_param.md). Each is a request
that, once accepted, is encoded (validation first), refused with IOError if the transport is closed, and handed to
the sequencer, which emits it one transport primitive per step (R120). -/

namespace Sys2Proof.Machine

/-- A panel command after acceptance (40_commands_plain.md R120): `groups` is what `encode` answered. -/
def State.startCommand (groups : Option (List Group)) (s : State) : State :=
  match groups with
  | none => s.raise .validation
  | some gs =>
    if s.tpOpen then { s with seq := .cmd, todo := emission s.cfg gs } else s.raise .io

/-! ### The nine commands without parameters -/

/-- `reset()`, the panel's software reset (40_commands_plain.md R121). -/
def execReset (s : State) : Host.Outcome State Fault Refusal :=
  .next (s.request (encodeOp .reset) (State.startCommand (encode s.cfg .reset)))

/-- `sleepIn()` (40_commands_plain.md R122). -/
def execSleepIn (s : State) : Host.Outcome State Fault Refusal :=
  .next (s.request (encodeOp .sleepIn) (State.startCommand (encode s.cfg .sleepIn)))

/-- `sleepOut()` (40_commands_plain.md R123). -/
def execSleepOut (s : State) : Host.Outcome State Fault Refusal :=
  .next (s.request (encodeOp .sleepOut) (State.startCommand (encode s.cfg .sleepOut)))

/-- `invertOff()` (40_commands_plain.md R124). -/
def execInvertOff (s : State) : Host.Outcome State Fault Refusal :=
  .next (s.request (encodeOp .invertOff) (State.startCommand (encode s.cfg .invertOff)))

/-- `invertOn()` (40_commands_plain.md R125). -/
def execInvertOn (s : State) : Host.Outcome State Fault Refusal :=
  .next (s.request (encodeOp .invertOn) (State.startCommand (encode s.cfg .invertOn)))

/-- `displayOff()` (40_commands_plain.md R126). -/
def execDisplayOff (s : State) : Host.Outcome State Fault Refusal :=
  .next (s.request (encodeOp .displayOff) (State.startCommand (encode s.cfg .displayOff)))

/-- `displayOn()` (40_commands_plain.md R127). -/
def execDisplayOn (s : State) : Host.Outcome State Fault Refusal :=
  .next (s.request (encodeOp .displayOn) (State.startCommand (encode s.cfg .displayOn)))

/-- `tearingEffectOff()` (40_commands_plain.md R128). -/
def execTearingEffectOff (s : State) : Host.Outcome State Fault Refusal :=
  .next (s.request (encodeOp .tearingEffectOff) (State.startCommand (encode s.cfg .tearingEffectOff)))

/-- `tearingEffectOn()`: no parameter byte (40_commands_plain.md R129). -/
def execTearingEffectOn (s : State) : Host.Outcome State Fault Refusal :=
  .next (s.request (encodeOp .tearingEffectOn) (State.startCommand (encode s.cfg .tearingEffectOn)))

/-! ### The seven commands with parameters -/

/-- `setGamma(curve)` (41_commands_param.md R141). -/
def execSetGamma (s : State) : Host.Outcome State Fault Refusal :=
  .next (s.request (encodeOp .setGamma) (State.startCommand (encode s.cfg (.setGamma s.regs.argCurve))))

/-- `setColumnRange(begin, end)` (41_commands_param.md R145). -/
def execSetColumnRange (s : State) : Host.Outcome State Fault Refusal :=
  .next (s.request (encodeOp .setColumnRange)
    (State.startCommand (encode s.cfg (.setColumnRange s.regs.argBegin s.regs.argEnd))))

/-- `setRowRange(begin, end)` (41_commands_param.md R147). -/
def execSetRowRange (s : State) : Host.Outcome State Fault Refusal :=
  .next (s.request (encodeOp .setRowRange)
    (State.startCommand (encode s.cfg (.setRowRange s.regs.argBegin s.regs.argEnd))))

/-- `writeMemory(bytes)` (41_commands_param.md R150): the bound check on the latches, then the payload from FB. -/
def execWriteMemory (s : State) : Host.Outcome State Fault Refusal :=
  .next (s.request (encodeOp .writeMemory)
    (State.startCommand (if s.payloadFits then encode s.cfg (.writeMemory s.payload) else none)))

/-- `setPalette(r, g, b)` (41_commands_param.md R155). -/
def execSetPalette (s : State) : Host.Outcome State Fault Refusal :=
  .next (s.request (encodeOp .setPalette) (State.startCommand (encode s.cfg s.paletteCommand)))

/-- `setAddressMode(flags)` (41_commands_param.md R159). -/
def execSetAddressMode (s : State) : Host.Outcome State Fault Refusal :=
  .next (s.request (encodeOp .setAddressMode)
    (State.startCommand (encode s.cfg (.setAddressMode (latchFlags s.regs.argFlags)))))

/-- `setColorMode(bitsPerPixel)` (41_commands_param.md R164). -/
def execSetColorMode (s : State) : Host.Outcome State Fault Refusal :=
  .next (s.request (encodeOp .setColorMode) (State.startCommand (encode s.cfg (.setColorMode s.regs.argBpp))))

end Sys2Proof.Machine
end

