-- ==== Sys2Proof/Machine/Scaler.lean ====
section
/-! DEFINITION. SCALER: coordinates, clamping, fetch and bilinear interpolation, in exact integer arithmetic
(42_scaler.md R171 to R183). -/

namespace Sys2Proof.Machine

/-- `Dx = PANEL_H - 1` (42_scaler.md R172). -/
def dX (c : Config) : Nat := c.panelH - 1

/-- `Dy = PANEL_W - 1` (42_scaler.md R173). -/
def dY (c : Config) : Nat := c.panelW - 1

/-- `D = Dx * Dy` (42_scaler.md R179). -/
def den (c : Config) : Nat := dX c * dY c

/-- `Xn`: the destination ROW drives the horizontal source coordinate (42_scaler.md R172, R174). -/
def xNum (c : Config) (r : Nat) : Nat := c.cropLeft * dX c + r * (c.cropW - 1)

/-- `Yn`: the destination COLUMN drives the vertical source coordinate (42_scaler.md R173, R174). -/
def yNum (c : Config) (col : Nat) : Nat := c.cropTop * dY c + col * (c.cropH - 1)

/-- `xf = Xn div Dx` (42_scaler.md R175). -/
def xFloor (c : Config) (r : Nat) : Nat := xNum c r / dX c

/-- `fx = Xn mod Dx` (42_scaler.md R175). -/
def xFrac (c : Config) (r : Nat) : Nat := xNum c r % dX c

/-- `yf = Yn div Dy` (42_scaler.md R175). -/
def yFloor (c : Config) (col : Nat) : Nat := yNum c col / dY c

/-- `fy = Yn mod Dy` (42_scaler.md R175). -/
def yFrac (c : Config) (col : Nat) : Nat := yNum c col % dY c

/-- Clamping to the last valid index of the source frame (42_scaler.md R176, R177). -/
def clampIndex (i size : Nat) : Nat := min i (size - 1)

/-- The address of a channel of a source pixel: BGRA in memory (42_scaler.md R178, 20_memory.md R61, R62). -/
def srcAddr (pitch x y ch : Nat) : Nat := y * pitch + 4 * x + (2 - ch)

/-- `P(x, y, ch)` (42_scaler.md R178). -/
def sample (mem : Nat → Byte) (pitch x y ch : Nat) : Nat := (mem (srcAddr pitch x y ch)).toNat

/-- `w00` (42_scaler.md R179). -/
def w00 (c : Config) (r col : Nat) : Nat := (dX c - xFrac c r) * (dY c - yFrac c col)

/-- `w10` (42_scaler.md R179). -/
def w10 (c : Config) (r col : Nat) : Nat := xFrac c r * (dY c - yFrac c col)

/-- `w01` (42_scaler.md R179). -/
def w01 (c : Config) (r col : Nat) : Nat := (dX c - xFrac c r) * yFrac c col

/-- `w11` (42_scaler.md R179). -/
def w11 (c : Config) (r col : Nat) : Nat := xFrac c r * yFrac c col

/-- `interp(r, c, ch) = N` (42_scaler.md R180), over any reading of the source frame. -/
def interp (c : Config) (l : Latches) (mem : Nat → Byte) (r col ch : Nat) : Nat :=
  let x0 := clampIndex (xFloor c r) l.srcW.toNat
  let x1 := clampIndex (xFloor c r + 1) l.srcW.toNat
  let y0 := clampIndex (yFloor c col) l.srcH.toNat
  let y1 := clampIndex (yFloor c col + 1) l.srcH.toNat
  let p := l.srcPitch.toNat
  w00 c r col * sample mem p x0 y0 ch + w10 c r col * sample mem p x1 y0 ch +
    w01 c r col * sample mem p x0 y1 ch + w11 c r col * sample mem p x1 y1 ch

end Sys2Proof.Machine
end

