-- ==== Sys2Proof/Machine/Packer.lean ====
section
/-! DEFINITION. PACKER: quantisation to 6 bits, packing and the store into FB (43_packer.md R190 to R196), and the
step of RESAMPLE over one destination pixel (42_scaler.md R170). -/

namespace Sys2Proof.Machine

/-- `quant(N)` over the denominator `D` (43_packer.md R191): round to nearest, half up. -/
def quant (n d : Nat) : Nat := (126 * n + 255 * d) / (510 * d)

/-- `pack(q) = q << 2` (43_packer.md R192). -/
def pack (q : Nat) : Byte := BitVec.ofNat 8 (q * 4)

/-- `fb_addr(f, r, c, ch)` (20_memory.md R63). -/
def fbAddr (c : Config) (f r col ch : Nat) : Nat := ((f * c.panelH + r) * c.panelW + col) * 3 + ch

/-- The byte RESAMPLE stores for channel `ch` of destination pixel `(r, col)` (42_scaler.md R170). -/
def pixelByte (c : Config) (l : Latches) (mem : Nat → Byte) (r col ch : Nat) : Byte :=
  pack (quant (interp c l mem r col ch) (den c))

/-- The datapath registers once pixel `(r, col)` is done: those of its last channel (10_state.md R25; log entry 3). -/
def pixelDatapath (c : Config) (l : Latches) (mem : Nat → Byte) (r col : Nat) : Datapath where
  r := BitVec.ofNat 8 r
  c := BitVec.ofNat 8 col
  ch := 2
  xn := BitVec.ofNat 32 (xNum c r)
  yn := BitVec.ofNat 32 (yNum c col)
  x0 := BitVec.ofNat 32 (clampIndex (xFloor c r) l.srcW.toNat)
  x1 := BitVec.ofNat 32 (clampIndex (xFloor c r + 1) l.srcW.toNat)
  y0 := BitVec.ofNat 32 (clampIndex (yFloor c col) l.srcH.toNat)
  y1 := BitVec.ofNat 32 (clampIndex (yFloor c col + 1) l.srcH.toNat)
  fx := BitVec.ofNat 8 (xFrac c r)
  fy := BitVec.ofNat 8 (yFrac c col)
  n := BitVec.ofNat 23 (interp c l mem r col 2)
  q := BitVec.ofNat 6 (quant (interp c l mem r col 2) (den c))

/-- Store the three channel bytes of a destination pixel (43_packer.md R193). -/
def State.storePixel (r col : Nat) (s : State) : State :=
  let a := fbAddr s.cfg s.regs.argSlot.toNat r col 0
  let b := pixelByte s.cfg s.regs (s.readByte .src) r col
  ((s.writeByte .fb a (b 0)).writeByte .fb (a + 1) (b 1)).writeByte .fb (a + 2) (b 2)

/-- The position after a destination pixel: columns inner, rows outer (42_scaler.md R170); `none` after the last. -/
def nextPixel (c : Config) (r col : Nat) : Option (Nat × Nat) :=
  if col + 1 < c.panelW then some (r, col + 1)
  else if r + 1 < c.panelH then some (r + 1, 0)
  else none

/-- One step of RESAMPLE: the three channels of one destination pixel, then the next pixel or the end
(42_scaler.md R170). -/
def State.pixelStep (r col : Nat) (s : State) : State :=
  let t := { s.storePixel r col with dp := pixelDatapath s.cfg s.regs (s.readByte .src) r col }
  match nextPixel s.cfg r col with
  | some (r', col') => { t with seq := .resample r' col' }
  | none => t.complete

/-- RESAMPLE after acceptance: ValidationError before any byte of FB is written, else the first pixel
(42_scaler.md R170). -/
def State.startResample (s : State) : State :=
  if frameValid s.cfg s.regs then { s with seq := .resample 0 0, todo := [] } else s.raise .validation

/-- `RESAMPLE` (42_scaler.md R170), admitted whether the transport is open or not. -/
def execResample (s : State) : Host.Outcome State Fault Refusal :=
  .next (s.request (encodeOp .resample) State.startResample)

end Sys2Proof.Machine
end

