-- ==== Sys2Proof/Machine/Sequencer.lean ====
section
/-! DEFINITION. The sequencer: the initialisation table, the frame triple, pacing, and one step of the running
operation. One transport primitive per step (10_state.md R24, R45).

Rules: 44_streamer.md R203 to R222, 40_commands_plain.md R120. -/

namespace Sys2Proof.Machine

/-- The primitives of a command: `emit(encode(k))`. The commands the sequencer issues itself have constant, valid
arguments (44_streamer.md R203, R211), so `encode` answers. -/
def commandEvents (c : Config) (k : Command) : List Event := emission c ((encode c k).getD [])

/-- All six flags false: the default address mode (44_streamer.md R204 step 9). -/
def AddressFlags.none : AddressFlags where
  rowInverse := false
  columnInverse := false
  rowColumnSwap := false
  rowRefreshInverse := false
  columnRefreshInverse := false
  rgbInverse := false

/-- Step `k` of the initialisation table (44_streamer.md R204). -/
def initEvents (c : Config) (k : Nat) : List Event :=
  match k with
  | 0 => [.openCh c.spiHz c.spiMode]
  | 1 => [.level .dc false]
  | 2 => [.level .rst false]
  | 3 => [.pause c.tRstLowMs]
  | 4 => [.level .rst true]
  | 5 => [.pause c.tRstWaitMs]
  | 6 => commandEvents c .reset
  | 7 => [.pause c.tSwresetWaitMs]
  | 8 => commandEvents c .sleepOut
  | 9 => commandEvents c (.setAddressMode AddressFlags.none)
  | 10 => commandEvents c (.setColorMode 18)
  | 11 => commandEvents c (.setGamma 10)
  | 12 => commandEvents c .invertOff
  | 13 => commandEvents c .tearingEffectOff
  | 14 => commandEvents c .displayOn
  | _ => []

/-- The last step of the initialisation table (44_streamer.md R204). -/
def lastInitStep : Nat := 14

/-- `setColumnRange(0, PANEL_W - 1)` (44_streamer.md R217). -/
def colEvents (c : Config) : List Event := commandEvents c (.setColumnRange 0 (BitVec.ofNat 16 (c.panelW - 1)))

/-- `setRowRange(0, PANEL_H - 1)` (44_streamer.md R217). -/
def rowEvents (c : Config) : List Event := commandEvents c (.setRowRange 0 (BitVec.ofNat 16 (c.panelH - 1)))

/-- `writeMemory(MemRead(FB, i * FRAME_BYTES, FRAME_BYTES))` (44_streamer.md R217, R218). -/
def memEvents (s : State) (i : Nat) : List Event :=
  commandEvents s.cfg (.writeMemory (s.readRange .fb (i * s.cfg.frameBytes) s.cfg.frameBytes))

/-- The primitives of a sequencer position. Positions that call none (a check, a pixel, the deadline's advance) have
an empty list. -/
def eventsAt (s : State) : Seq → List Event
  | .init k => initEvents s.cfg k
  | .playInit k => initEvents s.cfg k
  | .playFrame _ .col => colEvents s.cfg
  | .playFrame _ .row => rowEvents s.cfg
  | .playFrame i .mem => memEvents s i
  | .playFrame _ .sleep => [.sleepUntil s.dlSec s.dlNsec.toNat]
  | .playFrame _ .advance => []
  | .idle => []
  | .cmd => []
  | .resample _ _ => []
  | .playCheck => []
  | .teardown => [.closeCh]

/-- Go to a position and load its primitives. -/
def State.enter (q : Seq) (s : State) : State := { s with seq := q, todo := eventsAt s q }

/-- Go to the frame boundary before frame `i`, where `stop_req` is looked at: `frame_idx <- i`, so that it is the `i`
of `seq` throughout (44_streamer.md R211, R222; 10_state.md R26). -/
def State.toBoundary (i : Nat) (s : State) : State :=
  { s with seq := .playFrame i .col, frameIdx := BitVec.ofNat 32 i, todo := [] }

/-- The start of the loop over the frames (44_streamer.md R211). Over an empty buffer there is no frame to go to: PLAY
stays where the initialisation table ended, PLAY_INIT(14), with nothing to call (R215; log entry 18). -/
def State.toFrames (s : State) : State := if s.nFrames = 0 then s.setTodo [] else s.toBoundary 0

/-- The reference time: `(dl_sec, dl_nsec) <- now` (44_streamer.md R214). -/
def State.captureNow (s : State) : State :=
  { s with dlSec := s.env.nowSec, dlNsec := BitVec.ofNat 30 s.env.nowNsec }

/-- `advance(sec, nsec, p)` (44_streamer.md R219). -/
def advanceDeadline (sec nsec p : Nat) : Nat × Nat :=
  let nsec' := nsec + 1000000 * (p % 1000)
  let sec' := sec + p / 1000
  if nsec' ≥ 1000000000 then (sec' + 1, nsec' - 1000000000) else (sec', nsec')

/-- The deadline moves by one period (44_streamer.md R219). -/
def State.moveDeadline (s : State) : State :=
  let d := advanceDeadline s.dlSec s.dlNsec.toNat s.periodLatched.toNat
  { s with dlSec := d.1, dlNsec := BitVec.ofNat 30 d.2 }

/-- The frame after frame `i`, back to 0 after the last (44_streamer.md R216). -/
def nextFrame (n i : Nat) : Nat := if i + 1 < n then i + 1 else 0

/-- `stopped:` of PLAY (44_streamer.md R211): `stop_req` consumed, teardown, completion without error. -/
def State.stopped (s : State) : State := State.teardown { s with stopReq := false }

/-- The checks of PLAY in their order: period, capacity, multiple of a frame (44_streamer.md R211 to R213). -/
def State.playCheck (s : State) : State :=
  let t := { s with periodLatched := s.regs.periodMs }
  if t.periodLatched = 0 then t.raise .usage
  else if t.cfg.fbCap < t.regs.fbLen.toNat then t.raise .usage
  else if t.regs.fbLen.toNat % t.cfg.frameBytes ≠ 0 then t.raise .corruptInput
  else State.enter (.playInit 0) { t with nFrames := BitVec.ofNat 32 (t.regs.fbLen.toNat / t.cfg.frameBytes) }

/-- The frame boundary: the look at `stop_req`, then the column range (44_streamer.md R211, R222). -/
def State.boundary (s : State) : State :=
  if s.stopReq then s.stopped else s.setTodo (colEvents s.cfg)

/-- One pass over an empty buffer: only the look at `stop_req` (44_streamer.md R211, R215). -/
def State.emptyPass (s : State) : State :=
  if s.nFrames = 0 ∧ s.stopReq = true then s.stopped else s

/-- What follows the last primitive of a position (44_streamer.md R203, R211; 40_commands_plain.md R120). -/
def State.afterPosition (s : State) : State :=
  match s.seq with
  | .cmd => s.complete
  | .init k => if k < lastInitStep then s.enter (.init (k + 1)) else s.complete
  | .playInit k => if k < lastInitStep then s.enter (.playInit (k + 1)) else s.captureNow.toFrames
  | .playFrame i .col => s.enter (.playFrame i .row)
  | .playFrame i .row => s.enter (.playFrame i .mem)
  | .playFrame i .mem => s.enter (.playFrame i .advance)
  | .playFrame i .advance => s.enter (.playFrame i .sleep)
  | .playFrame i .sleep => s.toBoundary (nextFrame s.nFrames.toNat i)
  | .teardown => s.complete
  | .idle => s
  | .resample _ _ => s
  | .playCheck => s

/-- A primitive has returned: the rest of the position, or what follows it. -/
def State.afterPrimitive (rest : List Event) (s : State) : State :=
  match rest with
  | [] => (s.setTodo []).afterPosition
  | p :: ps => s.setTodo (p :: ps)

/-- A step at a position that has no primitive to call. -/
def State.internalStep (s : State) : State :=
  match s.seq with
  | .playCheck => s.playCheck
  | .resample r c => s.pixelStep r c
  | .playFrame _ .col => s.boundary
  | .playFrame i .advance => s.moveDeadline.enter (.playFrame i .sleep)
  | .teardown => s.teardown
  | .cmd => s.complete
  | .init k => s.enter (.init k)
  | .playInit k => if k = lastInitStep then s.emptyPass else s.enter (.playInit k)
  | .playFrame i .row => s.enter (.playFrame i .row)
  | .playFrame i .mem => s.enter (.playFrame i .mem)
  | .playFrame i .sleep => s.enter (.playFrame i .sleep)
  | .idle => s

/-- One step of the running operation: one transport primitive, or one internal step (10_state.md R24). A `fail`
raises IOError (R47); a primitive without an answer keeps the block where it is (70_reset_and_hazards.md R285). -/
def State.seqStep (s : State) : State :=
  match s.todo with
  | [] => s.internalStep
  | p :: rest =>
    match s.call p with
    | .pending t => t
    | .failed t => t.raise .io
    | .returned t => t.afterPrimitive rest

end Sys2Proof.Machine
end

