-- ==== Sys2Proof/Machine/Streamer.lean ====
section
/-! DEFINITION. STREAMER: the operations OPEN_INIT, PLAY, STOP and CLOSE (44_streamer.md). What they do after
acceptance is the sequencer's (Sequencer.lean). -/

namespace Sys2Proof.Machine

/-- OPEN_INIT after acceptance (44_streamer.md R203): with the transport open it is a malformed request. -/
def State.startOpenInit (s : State) : State :=
  if s.tpOpen then s.raise .usage else s.enter (.init 0)

/-- PLAY after acceptance (44_streamer.md R211): with the transport open it is a malformed request. -/
def State.startPlay (s : State) : State :=
  if s.tpOpen then s.raise .usage else s.enter .playCheck

/-- `OPEN_INIT` (44_streamer.md R203). -/
def execOpenInit (s : State) : Host.Outcome State Fault Refusal :=
  .next (s.request (encodeOp .openInit) State.startOpenInit)

/-- `PLAY` (44_streamer.md R211). -/
def execPlay (s : State) : Host.Outcome State Fault Refusal :=
  .next (s.request (encodeOp .play) State.startPlay)

/-- The positions in which a STOP is latched (44_streamer.md R222). -/
def Seq.isPlay : Seq → Bool
  | .playCheck => true
  | .playInit _ => true
  | .playFrame _ _ => true
  | .idle => false
  | .cmd => false
  | .init _ => false
  | .resample _ _ => false
  | .teardown => false

/-- `STOP` (44_streamer.md R222): accepted also while busy, never held, without effect outside PLAY and while halted
(60_exceptions.md R247). -/
def execStop (s : State) : Host.Outcome State Fault Refusal :=
  .next (if s.err = 0 ∧ s.seq.isPlay then { s with stopReq := true } else s)

/-- `CLOSE` (44_streamer.md R226): the teardown, which calls `tp.close()` in the next step if the transport is open. -/
def execClose (s : State) : Host.Outcome State Fault Refusal :=
  .next (s.request (encodeOp .close) State.teardown)

end Sys2Proof.Machine
end

