-- ==== Sys2Proof/Machine/Dispatch.lean ====
section
/-! DEFINITION. The dispatch of an operation to its meaning, one arm per constructor. -/

namespace Sys2Proof.Machine

-- The meaning of every operation of spec/opcode_table.json.
def exec (i : Instr) (s : State) : Host.Outcome State Fault Refusal :=
  match i with
  | .reset => Sys2Proof.Machine.execReset s
  | .sleepIn => Sys2Proof.Machine.execSleepIn s
  | .sleepOut => Sys2Proof.Machine.execSleepOut s
  | .invertOff => Sys2Proof.Machine.execInvertOff s
  | .invertOn => Sys2Proof.Machine.execInvertOn s
  | .setGamma => Sys2Proof.Machine.execSetGamma s
  | .displayOff => Sys2Proof.Machine.execDisplayOff s
  | .displayOn => Sys2Proof.Machine.execDisplayOn s
  | .setColumnRange => Sys2Proof.Machine.execSetColumnRange s
  | .setRowRange => Sys2Proof.Machine.execSetRowRange s
  | .writeMemory => Sys2Proof.Machine.execWriteMemory s
  | .setPalette => Sys2Proof.Machine.execSetPalette s
  | .tearingEffectOff => Sys2Proof.Machine.execTearingEffectOff s
  | .tearingEffectOn => Sys2Proof.Machine.execTearingEffectOn s
  | .setAddressMode => Sys2Proof.Machine.execSetAddressMode s
  | .setColorMode => Sys2Proof.Machine.execSetColorMode s
  | .openInit => Sys2Proof.Machine.execOpenInit s
  | .resample => Sys2Proof.Machine.execResample s
  | .play => Sys2Proof.Machine.execPlay s
  | .stop => Sys2Proof.Machine.execStop s
  | .close => Sys2Proof.Machine.execClose s

end Sys2Proof.Machine
end

