-- ==== Sys2Proof/Machine/Flags.lean ====
section
/-! DEFINITION. The flags: the STATUS register (10_state.md R28). There are no condition codes (R27). -/

namespace Sys2Proof.Machine

/-- `halted` equals `ERR != 0` (10_state.md R28). -/
def State.halted (s : State) : Bool := decide (s.err ≠ 0)

/-- The STATUS register, one bit per field, bits 7:6 reading 0 (10_state.md R28). -/
def State.status (s : State) : Byte :=
  BitVec.ofNat 8 (s.busy.toNat + 2 * s.tpOpen.toNat + 4 * s.halted.toNat + 8 * s.stopReq.toNat +
    16 * s.dc.toNat + 32 * s.rst.toNat)

end Sys2Proof.Machine
end

