-- ==== Sys2Proof/Machine/HostPort.lean ====
section
/-! DEFINITION. The host port: the registers by number, the host's moves, and the block's turn
(10_state.md R21, R23, R33; 70_reset_and_hazards.md R270, R275). -/

namespace Sys2Proof.Machine

/-- The number of the request register `OP` (10_state.md R33). -/
def opRegister : Nat := 0x1F

/-- What a host read of a register returns, zero-extended (10_state.md R33): reserved numbers read 0. -/
def State.readReg (s : State) (num : Nat) : Word :=
  match num with
  | 0x00 => s.regs.argBegin.setWidth 32
  | 0x01 => s.regs.argEnd.setWidth 32
  | 0x02 => s.regs.argCurve.setWidth 32
  | 0x03 => s.regs.argBpp.setWidth 32
  | 0x04 => s.regs.argFlags.setWidth 32
  | 0x05 => s.regs.argAddr
  | 0x06 => s.regs.argLen
  | 0x07 => s.regs.argSlot
  | 0x08 => s.regs.srcH
  | 0x09 => s.regs.srcW
  | 0x0A => s.regs.srcPitch
  | 0x0B => s.regs.fbLen
  | 0x0C => s.regs.periodMs
  | 0x10 => s.status.setWidth 32
  | 0x11 => s.err.setWidth 32
  | 0x12 => s.errOp.setWidth 32
  | 0x1F => Config.opReadValue
  | _ => 0

/-- The latches after a host write of a number: each keeps the low bits of its width; other numbers change none
(10_state.md R23, R33). -/
def Latches.write (l : Latches) (num : Nat) (v : Word) : Latches :=
  match num with
  | 0x00 => { l with argBegin := v.setWidth 16 }
  | 0x01 => { l with argEnd := v.setWidth 16 }
  | 0x02 => { l with argCurve := v.setWidth 8 }
  | 0x03 => { l with argBpp := v.setWidth 8 }
  | 0x04 => { l with argFlags := v.setWidth 6 }
  | 0x05 => { l with argAddr := v }
  | 0x06 => { l with argLen := v }
  | 0x07 => { l with argSlot := v }
  | 0x08 => { l with srcH := v }
  | 0x09 => { l with srcW := v }
  | 0x0A => { l with srcPitch := v }
  | 0x0B => { l with fbLen := v }
  | 0x0C => { l with periodMs := v }
  | _ => l

/-- A host write of a latch: ignored while busy (10_state.md R33). -/
def State.writeLatch (num : Nat) (v : Word) (s : State) : State :=
  if s.busy then s else { s with regs := s.regs.write num v }

/-- A request arrives at the block: the code is decoded and the operation's meaning runs; an unknown code is a
malformed request (30_encoding.md R110, R111). -/
def State.issue (code : Byte) (s : State) : Host.Outcome State Fault Refusal :=
  match decodeOp code with
  | .instr i => exec i s
  | .rejected _ => .next (s.unknownRequest code)

/-- The `reset` input (70_reset_and_hazards.md R270): every piece of the block's state takes its reset value; the
configuration, the environment and the host's script are no state of the block and stay. -/
def State.assertReset (s : State) : State :=
  { State.reset with cfg := s.cfg, env := s.env, script := s.script }

/-- A host access is inside the memory (20_memory.md R61, R63, R66). -/
def inMemory (c : Config) (sp : Space) (a : Nat) : Bool := decide (a < capacity c sp)

/-- A move of the host or the platform (70_reset_and_hazards.md R275). -/
def State.hostMove (m : HostMove) (s : State) : Host.Outcome State Fault Refusal :=
  match m with
  | .writeReg num v => if num = opRegister then s.issue (v.setWidth 8) else .next (s.writeLatch num v)
  | .readReg num => .next { s with rdata := s.readReg num }
  | .writeMem sp a v =>
    if s.busy then .refused .hostWriteWhileBusy
    else if inMemory s.cfg sp a then .next (s.writeByte sp a v)
    else .fault (.hostAddress sp a)
  | .readMem sp a =>
    if inMemory s.cfg sp a then .next { s with rdata := (s.readByte sp a).setWidth 32 }
    else .fault (.hostAddress sp a)
  | .assertReset => .next s.assertReset

/-- The block's turn (10_state.md R21, R24): a step of the running operation; without one, the oldest held request
unless the block is halted; else nothing, the block waits (70_reset_and_hazards.md R270). -/
def State.blockTurn (s : State) : Host.Outcome State Fault Refusal :=
  if s.busy then .next s.seqStep
  else if s.err ≠ 0 then .next s
  else
    match s.held with
    | [] => .next s
    | code :: rest => State.issue code { s with held := rest }

end Sys2Proof.Machine
end

