-- ==== Sys2Proof/Machine/Step.lean ====
section
/-! DEFINITION. One step of the machine: the turn the script names, the block's when it names none. -/

namespace Sys2Proof.Machine

/-- One step (10_state.md R20, R24): a move of the host or a step of the block. -/
def step (s : State) : Host.Outcome State Fault Refusal :=
  match s.script with
  | [] => s.blockTurn
  | .block :: rest => (s.setScript rest).blockTurn
  | .host m :: rest => (s.setScript rest).hostMove m

/-- The state whose next step takes the operation word `w`: the host's next move writes it to `OP`
(30_encoding.md R110). Nothing else changes. -/
def State.withFetchWord (s : State) (nbits w : Nat) : State :=
  s.setScript (.host (.writeReg opRegister (BitVec.ofNat 32 (w % 2 ^ nbits))) :: s.script)

end Sys2Proof.Machine
end

