-- ==== Sys2Proof/Safety.lean ====
section
/-! DEFINITION. The terms claims are stated in: operating states and the end of a run, what the panel can tell of a
trace, the environment's good will, the invariants of the machine.

Rules: 60_exceptions.md R252, 70_reset_and_hazards.md R295, 10_state.md R24, R46. -/

namespace Sys2Proof.Machine

/-! ### Operating states -/

/-- The operating states of 60_exceptions.md R252. -/
inductive OpState where
  | closed
  | opened
  | busy
  | halted
  deriving DecidableEq, Repr

/-- The operating state, derived from `busy`, `ERR` and `tp_open` (60_exceptions.md R252). While the teardown of error
entry calls `tp.close()` the block is still busy; HALTED is what error entry ends in. -/
def State.opState (s : State) : OpState :=
  if s.busy then .busy else if s.err ≠ 0 then .halted else if s.tpOpen then .opened else .closed

/-- A run is finished when `busy = 0` (70_reset_and_hazards.md R295). -/
def State.finished (s : State) : Bool := !s.busy

/-- The block can take a request now: state CLOSED or OPEN (10_state.md R21), no call in flight. -/
structure Ready (s : State) : Prop where
  notBusy : s.busy = false
  noError : s.err = 0
  noCall : s.inFlight = none

/-! ### The environment and the host during an operation -/

/-- The environment answers `ok` to the next `n` calls. -/
def Env.answersOk : Nat → Env → Bool
  | 0, _ => true
  | n + 1, e => decide (e.reply.kind = .ok) && Env.answersOk n { e with replies := e.replies.tail }

/-- The next `n` turns are the block's. -/
def State.undisturbed (n : Nat) (s : State) : Bool := (s.script.take n).all (fun t => decide (t = .block))

/-- `n` steps from `s` end in `t`, with no fault and no refusal on the way. -/
def Runs (n : Nat) (s t : State) : Prop := Host.Core.run Sys2Proof.core n s = .next t

/-- The calls of an opcode group (30_encoding.md R90, R93, R94): the mode line at the command level, the opcode. -/
def opcodeCalls (c : Config) (op : Byte) : List Event := [.level .dc c.dcCommandLevel, .write [op]]

/-- The calls of a data group: the mode line at the data level, the bytes. -/
def dataCalls (c : Config) (l : List Byte) : List Event := [.level .dc (!c.dcCommandLevel), .write l]

/-- The 29 events of the initialisation table (44_streamer.md R204), written out. -/
def initTrace (c : Config) : List Event :=
  [.openCh c.spiHz c.spiMode, .level .dc false, .level .rst false, .pause c.tRstLowMs, .level .rst true,
    .pause c.tRstWaitMs] ++ opcodeCalls c 0x01 ++ [.pause c.tSwresetWaitMs] ++ opcodeCalls c 0x11 ++
    (opcodeCalls c 0x36 ++ dataCalls c [0x00]) ++ (opcodeCalls c 0x3A ++ dataCalls c [0x06]) ++
    (opcodeCalls c 0x26 ++ dataCalls c [c.gamma.g10]) ++ opcodeCalls c 0x20 ++ opcodeCalls c 0x34 ++
    opcodeCalls c 0x29

/-- The twelve events of a frame (44_streamer.md R217) with its payload. -/
def frameTrace (c : Config) (payload : List Byte) : List Event :=
  (opcodeCalls c 0x2A ++ dataCalls c (rangeBytes 0 (BitVec.ofNat 16 (c.panelW - 1)))) ++
    (opcodeCalls c 0x2B ++ dataCalls c (rangeBytes 0 (BitVec.ofNat 16 (c.panelH - 1)))) ++
    (opcodeCalls c 0x2C ++ dataCalls c payload)

/-- The bytes of frame `i` of FB, in rising address order (44_streamer.md R218). -/
def State.frameBytesOf (s : State) (i : Nat) : List Byte :=
  (List.range s.cfg.frameBytes).map (fun j => s.readByte .fb (i * s.cfg.frameBytes + j))

/-- PLAY stands at the frame boundary before frame `i` and no primitive is in flight (44_streamer.md R222). -/
structure AtBoundary (i : Nat) (s : State) : Prop where
  running : s.busy = true
  position : s.seq = .playFrame i .col
  noCalls : s.todo = []
  noCall : s.inFlight = none

/-- PLAY loops over an empty buffer (44_streamer.md R215): it stands where the initialisation table ended, with nothing
to call. Log entry 18. -/
structure AtEmptyLoop (s : State) : Prop where
  running : s.busy = true
  position : s.seq = .playInit lastInitStep
  noFrames : s.nFrames = 0
  noCalls : s.todo = []
  noCall : s.inFlight = none

/-- A panel command right after acceptance, with the calls it is going to make (40_commands_plain.md R120). -/
def commandAccepted (code : Byte) (calls : List Event) (s : State) : State :=
  { s with busy := true, runOp := code, seq := .cmd, todo := calls }

/-- A panel command that made its calls and ended: they stand in the trace, the mode line is at `level`, the block is
idle; time has passed and turns were taken; nothing else changed (40_commands_plain.md R120). -/
def commandDone (code : Byte) (calls : List Event) (level : Bool) (e : Env) (s : State) : State :=
  { s with
    busy := false
    seq := .idle
    todo := []
    inFlight := none
    runOp := code
    trace := s.trace ++ calls
    dc := level
    env := e
    script := s.script.drop calls.length }

/-- The panel command `i` runs to its end: the request is accepted, and after one step per call the block is idle
again with the calls in the trace. -/
def CommandCompletes (i : Instr) (calls : List Event) (level : Bool) (s : State) : Prop :=
  exec i s = .next (commandAccepted (encodeOp i) calls s) ∧
    ∃ e : Env, s.env.nowNs ≤ e.nowNs ∧
      Runs calls.length (commandAccepted (encodeOp i) calls s) (commandDone (encodeOp i) calls level e s)

/-- Nothing hinders the next `n` steps of an operation: the block can take a request, the host makes no move, the
environment answers `ok`. -/
structure FairFor (n : Nat) (s : State) : Prop where
  ready : Ready s
  quietHost : s.undisturbed n = true
  goodReplies : s.env.answersOk n = true

/-- The state in which the operation with code `code` has raised `e` from `s` (60_exceptions.md R245), written out
field by field: halted, with one call of `tp.close()` still to make if the transport is open, else at rest. -/
def errorState (e : ErrClass) (code : Byte) (s : State) : State :=
  { s with
    err := e.code
    errOp := code
    runOp := code
    stopReq := false
    busy := s.tpOpen
    seq := if s.tpOpen then .teardown else .idle
    todo := if s.tpOpen then [.closeCh] else []
    inFlight := none }

/-- The state in which the teardown has called `tp.close()` and the operation has ended (44_streamer.md R225): the
channel closed once, the block at rest; time may have passed and a turn was taken; nothing else changed. -/
def closedState (e : Env) (s : State) : State :=
  { s with
    trace := s.trace ++ [.closeCh]
    tpOpen := false
    busy := false
    seq := .idle
    todo := []
    inFlight := none
    env := e
    script := s.script.tail }

/-! ### What the panel can tell of a trace -/

/-- What a trace is for one control line: the changes of its level, bytes, pauses (10_state.md R46). -/
inductive LineItem where
  | byte (b : Byte)
  | change (v : Bool)
  | pause (ms : Nat)
  | sleepUntil (sec nsec : Nat)
  deriving DecidableEq, Repr

/-- The view of a trace from one line, whose level is known or not (`none`: not driven yet). A level that the line
already has is no change; the other line does not show (10_state.md R46). -/
def lineItems (line : Line) : Option Bool → List Event → List LineItem
  | _, [] => []
  | now, .level l v :: t =>
    if l ≠ line ∨ now = some v then lineItems line now t else .change v :: lineItems line (some v) t
  | now, .write l :: t => l.map .byte ++ lineItems line now t
  | now, .pause ms :: t => .pause ms :: lineItems line now t
  | now, .sleepUntil sec nsec :: t => .sleepUntil sec nsec :: lineItems line now t
  | now, .openCh _ _ :: t => lineItems line now t
  | now, .closeCh :: t => lineItems line now t

/-- The tagged byte stream (10_state.md R46): every byte with the level of the mode line at its write. -/
def taggedBytes : Option Bool → List Event → List (Option Bool × Byte)
  | _, [] => []
  | _, .level .dc v :: t => taggedBytes (some v) t
  | dc, .level .rst _ :: t => taggedBytes dc t
  | dc, .write l :: t => l.map (fun b => (dc, b)) ++ taggedBytes dc t
  | dc, .pause _ :: t => taggedBytes dc t
  | dc, .sleepUntil _ _ :: t => taggedBytes dc t
  | dc, .openCh _ _ :: t => taggedBytes dc t
  | dc, .closeCh :: t => taggedBytes dc t

/-- Two traces are equivalent for the panel: the same tagged byte stream, and on each line the same sequence of level
changes relative to the bytes and the pauses (10_state.md R46; sleeps count as pauses, log entry 19). The order of a
change of DC and a change of RST between the same bytes does not show (44_streamer.md R205). -/
abbrev PanelEquivalent (t u : List Event) : Prop :=
  taggedBytes none t = taggedBytes none u ∧ lineItems .dc none t = lineItems .dc none u ∧
    lineItems .rst none t = lineItems .rst none u

/-- The operation `i`, started in `s`, ends without an error and adds `l` to the tagged byte stream (10_state.md R46):
each byte with the level of the mode line at its write. -/
def AddsTaggedBytes (i : Instr) (l : List (Bool × Byte)) (s : State) : Prop :=
  ∃ t n u, exec i s = .next t ∧ Runs n t u ∧ u.busy = false ∧ u.err = 0 ∧
    taggedBytes none u.trace = taggedBytes none s.trace ++ l.map (fun p => (some p.1, p.2))

/-- The deadlines of the sleeps of a trace, in nanoseconds, in order. -/
def sleepDeadlines : List Event → List Nat
  | [] => []
  | .sleepUntil sec nsec :: t => (1000000000 * sec + nsec) :: sleepDeadlines t
  | .openCh _ _ :: t => sleepDeadlines t
  | .level _ _ :: t => sleepDeadlines t
  | .write _ :: t => sleepDeadlines t
  | .pause _ :: t => sleepDeadlines t
  | .closeCh :: t => sleepDeadlines t

/-- The present deadline in nanoseconds (44_streamer.md R220). -/
def State.deadlineNs (s : State) : Nat := 1000000000 * s.dlSec + s.dlNsec.toNat

/-! ### The control invariant -/

/-- Level and write: the only primitives of a byte group (30_encoding.md R94). -/
def Event.isGroupCall : Event → Bool
  | .level _ _ => true
  | .write _ => true
  | .openCh _ _ => false
  | .pause _ => false
  | .sleepUntil _ _ => false
  | .closeCh => false

/-- The calls left are a non-empty rest of a position's list. -/
def RestOf (todo whole : List Event) : Prop := todo ≠ [] ∧ todo <:+ whole

/-- Step `k` of the initialisation table is running: `tp_open` is 0 before the open and 1 after it
(44_streamer.md R203). -/
def InitOk (k : Nat) (s : State) : Prop :=
  k ≤ lastInitStep ∧ RestOf s.todo (initEvents s.cfg k) ∧ (s.tpOpen = true ↔ k ≠ 0)

/-- PLAY's latched operands are good: a period, and frames that FB can hold (44_streamer.md R212, R213). -/
def PlayOk (s : State) : Prop :=
  s.periodLatched ≠ 0 ∧ s.nFrames.toNat * s.cfg.frameBytes ≤ s.cfg.fbCap

/-- The calls left in a phase of frame `i` (44_streamer.md R211); none at the frame boundary. -/
def PhaseOk (i : Nat) (s : State) : Phase → Prop
  | .col => s.todo = [] ∨ RestOf s.todo (colEvents s.cfg)
  | .row => RestOf s.todo (rowEvents s.cfg)
  | .mem => RestOf s.todo (memEvents s i)
  | .advance => s.todo = []
  | .sleep => s.todo = [.sleepUntil s.dlSec s.dlNsec.toNat]

/-- PLAY loops over an empty buffer (44_streamer.md R215; log entry 18). -/
def EmptyLoopOk (k : Nat) (s : State) : Prop :=
  k = lastInitStep ∧ s.todo = [] ∧ s.nFrames = 0 ∧ s.tpOpen = true

/-- The sequencer position is in the range the type of 10_state.md R24 gives it and the rest of the state agrees with
it; in PLAY_FRAME(i, ph) `frame_idx` is `i` (R26). -/
def PositionOk (s : State) : Prop :=
  match s.seq with
  | .idle => s.todo = []
  | .cmd => s.tpOpen = true ∧ s.todo ≠ [] ∧ s.todo.all Event.isGroupCall = true
  | .init k => InitOk k s
  | .resample r c => s.todo = [] ∧ r < s.cfg.panelH ∧ c < s.cfg.panelW ∧ frameValid s.cfg s.regs = true
  | .playCheck => s.todo = [] ∧ s.tpOpen = false
  | .playInit k => PlayOk s ∧ (InitOk k s ∨ EmptyLoopOk k s)
  | .playFrame i ph =>
    s.tpOpen = true ∧ PlayOk s ∧ i < s.nFrames.toNat ∧ s.frameIdx = BitVec.ofNat 32 i ∧ PhaseOk i s ph
  | .teardown => s.tpOpen = true ∧ s.todo = [.closeCh]

/-- The control invariant: `seq = IDLE` exactly when `busy = 0` (10_state.md R24); HALTED implies `busy = 0` and
`tp_open = 0` (60_exceptions.md R252) once the teardown of error entry has run (R245); only the codes R241 lets the
block write stand in `ERR`; `stop_req` only during PLAY (44_streamer.md R222); the nanoseconds of the deadline below
10^9 (10_state.md R26); the position in its range (R24). -/
structure ControlInv (s : State) : Prop where
  config : s.cfg.wf = true
  busyIff : s.busy = true ↔ s.seq ≠ .idle
  noStrayCall : s.todo = [] → s.inFlight = none
  position : PositionOk s
  haltedClosed : s.err ≠ 0 → s.seq = .teardown ∨ s.busy = false ∧ s.tpOpen = false
  errCode : s.err.toNat ≤ 4
  stopInPlay : s.stopReq = true → s.seq.isPlay = true
  deadline : s.dlNsec.toNat < 1000000000

/-! ### The memory invariant -/

/-- Every memory is in canonical form and inside its capacity (20_memory.md R61, R63, R66, R72). -/
structure MemoryInv (s : State) : Prop where
  canonical : ∀ sp, (s.mem sp).wf = true
  bounded : ∀ sp, (s.mem sp).within (capacity s.cfg sp) = true

/-! ### The wire discipline -/

/-- A group that may be sent at a level: at the command level exactly one of the sixteen opcodes, at the data level
any bytes, never none (30_encoding.md R90, R99; 10_state.md R46). -/
def groupOk (commandLevel level : Bool) (l : List Byte) : Bool :=
  if level = commandLevel then wireOpcodes.any (fun op => decide (l = [op])) else decide (l ≠ [])

/-- Every write is preceded immediately by the write of the mode line (30_encoding.md R94, 70_reset_and_hazards.md
R282) and its group may be sent at that level. The option is the level just written. -/
def disciplined (commandLevel : Bool) : Option Bool → List Event → Bool
  | _, [] => true
  | _, .level .dc v :: t => disciplined commandLevel (some v) t
  | some v, .write l :: t => groupOk commandLevel v l && disciplined commandLevel none t
  | none, .write _ :: _ => false
  | _, .level .rst _ :: t => disciplined commandLevel none t
  | _, .pause _ :: t => disciplined commandLevel none t
  | _, .sleepUntil _ _ :: t => disciplined commandLevel none t
  | _, .openCh _ _ :: t => disciplined commandLevel none t
  | _, .closeCh :: t => disciplined commandLevel none t

/-- The calls of the present position that have not been made: the head of `todo` has, when it is in flight. -/
def State.uncalled (s : State) : List Event :=
  match s.inFlight with
  | none => s.todo
  | some _ => s.todo.tail

/-- The wire invariant: what has been sent, and what is about to be, keeps the discipline. -/
def WireInv (s : State) : Prop :=
  disciplined s.cfg.dcCommandLevel none (s.trace ++ s.uncalled) = true

end Sys2Proof.Machine
end

