-- ==== Sys2Proof/Certificates/Slice0/Obligations.lean ====
section
/-! DEFINITION. The statements about the model, for the provers. Each docstring names the rule it formalises. -/

open Sys2Proof Sys2Proof.Machine

/-! ### Encodings -/

/-- 30_encoding.md R110 and opcode_table.json: some request codes, bit by bit, and two codes no operation has. -/
def Obligations.RequestCodesDecode : Prop :=
  decodeOp 0b00000001 = .instr .reset ∧ decodeOp 0b00010001 = .instr .sleepOut ∧
    decodeOp 0b00100110 = .instr .setGamma ∧ decodeOp 0b00101010 = .instr .setColumnRange ∧
    decodeOp 0b00101100 = .instr .writeMemory ∧ decodeOp 0b00111010 = .instr .setColorMode ∧
    decodeOp 0b11100000 = .instr .openInit ∧ decodeOp 0b11100001 = .instr .resample ∧
    decodeOp 0b11100010 = .instr .play ∧ decodeOp 0b11100011 = .instr .stop ∧ decodeOp 0b11100100 = .instr .close ∧
    decodeOp 0x00 = .rejected (.unknownCode 0x00) ∧ decodeOp 0xE5 = .rejected (.unknownCode 0xE5)

/-- 30_encoding.md R110: every operation has one code, and every code the decoder accepts is that operation's. -/
def Obligations.CodeDecodingInvertsEncoding : Prop :=
  ∀ (i : Instr) (code : Byte), decodeOp code = .instr i ↔ code = encodeOp i

/-- 30_encoding.md R97: the four range bytes read back as the pair, and the pair is what R97's formula says. -/
def Obligations.RangeBytesReadBack : Prop :=
  (∀ first last : Half, decodeRange (rangeBytes first last) = some (first, last)) ∧
    ∀ d0 d1 d2 d3 : Byte, ∃ first last : Half, decodeRange [d0, d1, d2, d3] = some (first, last) ∧
      first.toNat = d0.toNat * 256 + d1.toNat ∧ last.toNat = d2.toNat * 256 + d3.toNat

/-- 30_encoding.md R90 to R92, R96: no bit of a panel command is lost on the wire. Where the four gamma codes are
distinct (R142 leaves them open) the groups `encode` answers read back as the command. -/
def Obligations.WireEncodingRoundTrip : Prop :=
  ∀ (c : Config) (k : Command) (gs : List Group), c.wf = true →
    [c.gamma.g10, c.gamma.g18, c.gamma.g22, c.gamma.g25].Nodup → k.wf = true → encode c k = some gs →
    readGroups c gs = some k

/-- 41_commands_param.md R161: for every admissible bit table the all-false byte is 0x00, each flag alone sets
exactly its bit, all six give 0xFC; and in general each flag is found at its bit and bits 1 and 0 are 0. -/
def Obligations.AddressByteHasEachFlagAtItsBit : Prop :=
  ∀ t : AddrBits, t.wf = true →
    addressByte t ⟨false, false, false, false, false, false⟩ = 0x00 ∧
    addressByte t ⟨true, false, false, false, false, false⟩ = BitVec.ofNat 8 (2 ^ t.rowInverse) ∧
    addressByte t ⟨false, true, false, false, false, false⟩ = BitVec.ofNat 8 (2 ^ t.columnInverse) ∧
    addressByte t ⟨false, false, true, false, false, false⟩ = BitVec.ofNat 8 (2 ^ t.rowColumnSwap) ∧
    addressByte t ⟨false, false, false, true, false, false⟩ = BitVec.ofNat 8 (2 ^ t.rowRefreshInverse) ∧
    addressByte t ⟨false, false, false, false, true, false⟩ = BitVec.ofNat 8 (2 ^ t.columnRefreshInverse) ∧
    addressByte t ⟨false, false, false, false, false, true⟩ = BitVec.ofNat 8 (2 ^ t.rgbInverse) ∧
    addressByte t ⟨true, true, true, true, true, true⟩ = 0xFC ∧
    ∀ f : AddressFlags, addressFlags t (addressByte t f) = f ∧
      (addressByte t f).getLsbD 0 = false ∧ (addressByte t f).getLsbD 1 = false

/-! ### Reset, requests, admission -/

/-- 70_reset_and_hazards.md R270, with the values of 10_state.md R49: what the reset input leaves, from any state. No
`Close` is produced (R271): the trace is empty. The configuration stays (10_state.md R22). The block then waits: its
turn changes nothing. The reset is the spec's decision D20; that held requests are forgotten, so that there is nothing
to take, is the model's choice (log entries 13 and 20). -/
def Obligations.ResetInputLeavesTheResetState : Prop :=
  ∀ (s : State) (rest : List Turn), s.script = .host .assertReset :: rest →
    ∃ t, step s = .next t ∧ t.seq = .idle ∧ t.busy = false ∧ t.tpOpen = false ∧ t.halted = false ∧
      t.stopReq = false ∧ t.err = 0 ∧ t.errOp = 0 ∧ t.frameIdx = 0 ∧ t.nFrames = 0 ∧ t.dlSec = 0 ∧ t.dlNsec = 0 ∧
      t.periodLatched = 0 ∧ t.trace = [] ∧ t.linesOut = false ∧ t.opState = .closed ∧ t.cfg = s.cfg ∧
      t.blockTurn = .next t

/-- A step runs the decoded operation (30_encoding.md R110): when the host's next move writes `OP`, the step is
`exec` of the operation the decoder reads, on the state with that move taken off the script; and `withFetchWord`
prepares exactly such a step. That a value wider than `OP` is read by its low byte is the model's choice (log entry
17), and so is the form of `withFetchWord` (log entry 6). -/
def Obligations.StepRunsDecodedRequest : Prop :=
  (∀ (s : State) (rest : List Turn) (v : Word) (i : Instr), s.script = .host (.writeReg 0x1F v) :: rest →
    decodeOp (v.setWidth 8) = .instr i → step s = exec i (s.setScript rest)) ∧
  ∀ (s : State) (w : Nat) (i : Instr), w < 256 → decodeTableWord 8 w = some i →
    step (s.withFetchWord 8 w) = exec i s

/-- 30_encoding.md R111, 60_exceptions.md R242 row 1: a code no operation has is a malformed request, UsageError,
with the byte written in `ERR_OP`. While busy it is held like any request but STOP, at the end of the held ones (log
entry 13), and raises the error when it is taken; while `ERR` is not 0 it has no effect (R247). That such a code
is a UsageError is the spec's decision D32; that a value wider than `OP` is read by its low byte is the model's choice
(log entry 17). -/
def Obligations.UnknownCodeRaisesUsageError : Prop :=
  ∀ (s : State) (rest : List Turn) (v : Word) (why : Reject), s.script = .host (.writeReg 0x1F v) :: rest →
    decodeOp (v.setWidth 8) = .rejected why →
    (Ready s → step s = .next (errorState .usage (v.setWidth 8) (s.setScript rest))) ∧
    (s.busy = true → s.err = 0 → step s = .next { s with held := s.held ++ [v.setWidth 8], script := rest }) ∧
    (s.err ≠ 0 → step s = .next (s.setScript rest))

/-- 10_state.md R21: a request other than STOP made while busy is held, and nothing else happens. That it joins the
held ones at the end, where there are some, is the model's choice (log entry 13). -/
def Obligations.BusyHoldsRequests : Prop :=
  ∀ (i : Instr) (s : State), i ≠ .stop → s.busy = true → s.err = 0 →
    exec i s = .next { s with held := s.held ++ [encodeOp i] }

/-- 10_state.md R21: once the block is idle the oldest held request is taken. That several are taken oldest first, each
by a turn of the block, is the model's choice (log entry 13). -/
def Obligations.HeldRequestStartsWhenIdle : Prop :=
  ∀ (s : State) (code : Byte) (rest : List Byte) (i : Instr), s.busy = false → s.err = 0 →
    s.held = code :: rest → decodeOp code = .instr i → s.undisturbed 1 = true →
    step s = exec i { s with held := rest, script := s.script.tail }

/-- 60_exceptions.md R247: while `ERR != 0` every request, CLOSE and STOP among them, has no effect. -/
def Obligations.HaltedTakesNoRequest : Prop :=
  ∀ (i : Instr) (s : State), s.err ≠ 0 → exec i s = .next s

/-! ### The panel commands -/

/-- 40_commands_plain.md R120 to R129: each of the nine commands sends its one byte in command mode and ends with the
mode line at the command level; with the transport closed it ends in IOError. Each of the nine completes. -/
def Obligations.PlainCommandsSendTheirOpcode : Prop :=
  ∀ (i : Instr) (op : Byte), (i, op) ∈ [(Instr.reset, (0x01 : Byte)), (.sleepIn, 0x10), (.sleepOut, 0x11),
      (.invertOff, 0x20), (.invertOn, 0x21), (.displayOff, 0x28), (.displayOn, 0x29), (.tearingEffectOff, 0x34),
      (.tearingEffectOn, 0x35)] →
    ∀ s : State, Ready s →
      (s.tpOpen = true → FairFor 2 s → CommandCompletes i (opcodeCalls s.cfg op) s.cfg.dcCommandLevel s) ∧
      (s.tpOpen = false → exec i s = .next (errorState .io op s))

/-- 41_commands_param.md R141, R143: setGamma sends 0x26 and the curve's code for exactly the four curves; any other
curve is a ValidationError and sends nothing, whether the transport is open or not. The IOError of a closed transport
and the order of the two checks are the spec's decisions D31 and D17 (40_commands_plain.md R120; log entry 21). -/
def Obligations.SetGammaSendsTheCurveCode : Prop :=
  ∀ s : State, Ready s →
    (∀ code : Byte, (s.regs.argCurve = 10 ∧ code = s.cfg.gamma.g10) ∨ (s.regs.argCurve = 18 ∧ code = s.cfg.gamma.g18) ∨
        (s.regs.argCurve = 22 ∧ code = s.cfg.gamma.g22) ∨ (s.regs.argCurve = 25 ∧ code = s.cfg.gamma.g25) →
      (s.tpOpen = true → FairFor 4 s →
        CommandCompletes .setGamma (opcodeCalls s.cfg 0x26 ++ dataCalls s.cfg [code]) (!s.cfg.dcCommandLevel) s) ∧
      (s.tpOpen = false → exec .setGamma s = .next (errorState .io 0x26 s))) ∧
    (s.regs.argCurve ≠ 10 → s.regs.argCurve ≠ 18 → s.regs.argCurve ≠ 22 → s.regs.argCurve ≠ 25 →
      exec .setGamma s = .next (errorState .validation 0x26 s))

/-- 41_commands_param.md R144, R145, R148: setColumnRange. -/
def Obligations.SetColumnRangeSendsTheRange : Prop :=
  ∀ s : State, Ready s →
    (s.regs.argBegin.toNat ≤ s.cfg.panelW - 1 ∧ s.regs.argEnd.toNat ≤ s.cfg.panelW - 1 ∧
        s.regs.argBegin.toNat ≤ s.regs.argEnd.toNat →
      (s.tpOpen = true → FairFor 4 s →
        CommandCompletes .setColumnRange (opcodeCalls s.cfg 0x2A ++ dataCalls s.cfg
          [hi s.regs.argBegin, lo s.regs.argBegin, hi s.regs.argEnd, lo s.regs.argEnd]) (!s.cfg.dcCommandLevel) s) ∧
      (s.tpOpen = false → exec .setColumnRange s = .next (errorState .io 0x2A s))) ∧
    (s.cfg.panelW - 1 < s.regs.argBegin.toNat ∨ s.cfg.panelW - 1 < s.regs.argEnd.toNat ∨
        s.regs.argEnd.toNat < s.regs.argBegin.toNat →
      exec .setColumnRange s = .next (errorState .validation 0x2A s))

/-- 41_commands_param.md R144, R147, R148: setRowRange. -/
def Obligations.SetRowRangeSendsTheRange : Prop :=
  ∀ s : State, Ready s →
    (s.regs.argBegin.toNat ≤ s.cfg.panelH - 1 ∧ s.regs.argEnd.toNat ≤ s.cfg.panelH - 1 ∧
        s.regs.argBegin.toNat ≤ s.regs.argEnd.toNat →
      (s.tpOpen = true → FairFor 4 s →
        CommandCompletes .setRowRange (opcodeCalls s.cfg 0x2B ++ dataCalls s.cfg
          [hi s.regs.argBegin, lo s.regs.argBegin, hi s.regs.argEnd, lo s.regs.argEnd]) (!s.cfg.dcCommandLevel) s) ∧
      (s.tpOpen = false → exec .setRowRange s = .next (errorState .io 0x2B s))) ∧
    (s.cfg.panelH - 1 < s.regs.argBegin.toNat ∨ s.cfg.panelH - 1 < s.regs.argEnd.toNat ∨
        s.regs.argEnd.toNat < s.regs.argBegin.toNat →
      exec .setRowRange s = .next (errorState .validation 0x2B s))

/-- 41_commands_param.md R150: writeMemory sends the payload of FB unchanged; an empty payload sends the opcode only;
a payload that leaves FB is a ValidationError. -/
def Obligations.WriteMemorySendsThePayload : Prop :=
  ∀ s : State, Ready s →
    (s.regs.argAddr.toNat + s.regs.argLen.toNat ≤ s.cfg.fbCap →
      (s.tpOpen = true → s.regs.argLen = 0 → FairFor 2 s →
        CommandCompletes .writeMemory (opcodeCalls s.cfg 0x2C) s.cfg.dcCommandLevel s) ∧
      (s.tpOpen = true → s.regs.argLen ≠ 0 → FairFor 4 s →
        CommandCompletes .writeMemory (opcodeCalls s.cfg 0x2C ++ dataCalls s.cfg
          ((List.range s.regs.argLen.toNat).map (fun j => s.readByte .fb (s.regs.argAddr.toNat + j))))
          (!s.cfg.dcCommandLevel) s) ∧
      (s.tpOpen = false → exec .writeMemory s = .next (errorState .io 0x2C s))) ∧
    (s.cfg.fbCap < s.regs.argAddr.toNat + s.regs.argLen.toNat →
      exec .writeMemory s = .next (errorState .validation 0x2C s))

/-- The palette limits of 41_commands_param.md R157 on the bytes of PAL (20_memory.md R66). -/
def paletteOk (s : State) : Prop :=
  (∀ j < 32, (s.readByte .pal j).toNat ≤ 0x3F) ∧ (∀ j < 64, (s.readByte .pal (32 + j)).toNat ≤ 0x7F) ∧
    ∀ j < 32, (s.readByte .pal (96 + j)).toNat ≤ 0x3F

/-- 41_commands_param.md R155 to R157: setPalette sends the 128 bytes of PAL in address order (red, green, blue), or
is a ValidationError if any entry is above its limit. The order of the three arrays is the spec's decision D26 (log
entry 21). -/
def Obligations.SetPaletteSendsThePalette : Prop :=
  ∀ s : State, Ready s →
    (paletteOk s →
      (s.tpOpen = true → FairFor 4 s →
        CommandCompletes .setPalette (opcodeCalls s.cfg 0x2D ++ dataCalls s.cfg
          ((List.range 128).map (fun j => s.readByte .pal j))) (!s.cfg.dcCommandLevel) s) ∧
      (s.tpOpen = false → exec .setPalette s = .next (errorState .io 0x2D s))) ∧
    (¬ paletteOk s → exec .setPalette s = .next (errorState .validation 0x2D s))

/-- 41_commands_param.md R159, R160 (with the latch layout of 10_state.md R23): setAddressMode sends the flags' byte;
in production its bits 7 to 2 are the flags in argument order with the third and fourth exchanged. That table is the
spec's decision D5, the default of a parameter (log entry 8). -/
def Obligations.SetAddressModeSendsTheFlags : Prop :=
  ∀ s : State, Ready s →
    (s.tpOpen = true → FairFor 4 s →
      CommandCompletes .setAddressMode (opcodeCalls s.cfg 0x36 ++ dataCalls s.cfg
        [addressByte s.cfg.addrBit (latchFlags s.regs.argFlags)]) (!s.cfg.dcCommandLevel) s) ∧
    (s.tpOpen = false → exec .setAddressMode s = .next (errorState .io 0x36 s)) ∧
    (s.cfg.IsProduction → ∀ k < 8, (addressByte s.cfg.addrBit (latchFlags s.regs.argFlags)).getLsbD k =
      match k with
      | 7 => s.regs.argFlags.getLsbD 5
      | 6 => s.regs.argFlags.getLsbD 4
      | 5 => s.regs.argFlags.getLsbD 2
      | 4 => s.regs.argFlags.getLsbD 3
      | 3 => s.regs.argFlags.getLsbD 1
      | 2 => s.regs.argFlags.getLsbD 0
      | _ => false)

/-- 41_commands_param.md R164, R165: setColorMode. -/
def Obligations.SetColorModeSendsTheCode : Prop :=
  ∀ s : State, Ready s →
    (∀ code : Byte, (s.regs.argBpp = 12 ∧ code = 0x03) ∨ (s.regs.argBpp = 16 ∧ code = 0x05) ∨
        (s.regs.argBpp = 18 ∧ code = 0x06) →
      (s.tpOpen = true → FairFor 4 s →
        CommandCompletes .setColorMode (opcodeCalls s.cfg 0x3A ++ dataCalls s.cfg [code]) (!s.cfg.dcCommandLevel) s) ∧
      (s.tpOpen = false → exec .setColorMode s = .next (errorState .io 0x3A s))) ∧
    (s.regs.argBpp ≠ 12 → s.regs.argBpp ≠ 16 → s.regs.argBpp ≠ 18 →
      exec .setColorMode s = .next (errorState .validation 0x3A s))

/-! ### STREAMER -/

/-- 44_streamer.md R203, R204, R207: OPEN_INIT runs the fifteen-step table once, in order, in 29 calls; the three
pauses have passed on the clock; with the transport open it is a malformed request. Everything else is unchanged. In
production the events are those the table prints. The UsageError is the spec's decisions D2 and D32 (R203,
30_encoding.md R111), the pauses as lower bounds its decision D42 (R207; how time passes is log entry 9). -/
def Obligations.OpenInitRunsTheTable : Prop :=
  ∀ s : State, Ready s →
    (s.tpOpen = false → FairFor 29 s →
      exec .openInit s = .next { s with
        busy := true, runOp := 0xE0, seq := .init 0, todo := [.openCh s.cfg.spiHz s.cfg.spiMode] } ∧
      ∃ e : Env, s.env.nowNs + 1000000 * (s.cfg.tRstLowMs + s.cfg.tRstWaitMs + s.cfg.tSwresetWaitMs) ≤ e.nowNs ∧
        Runs 29 { s with
            busy := true, runOp := 0xE0, seq := .init 0, todo := [.openCh s.cfg.spiHz s.cfg.spiMode] }
          { s with
            busy := false, runOp := 0xE0, seq := .idle, todo := [], inFlight := none,
            trace := s.trace ++ initTrace s.cfg, tpOpen := true, linesOut := true, dc := s.cfg.dcCommandLevel,
            rst := true, env := e, script := s.script.drop 29 }) ∧
    (s.tpOpen = true → exec .openInit s = .next (errorState .usage 0xE0 s)) ∧
    (s.cfg.IsProduction → initTrace s.cfg =
      [.openCh 15000000 0, .level .dc false, .level .rst false, .pause 10, .level .rst true, .pause 120,
        .level .dc false, .write [0x01], .pause 120, .level .dc false, .write [0x11],
        .level .dc false, .write [0x36], .level .dc true, .write [0x00],
        .level .dc false, .write [0x3A], .level .dc true, .write [0x06],
        .level .dc false, .write [0x26], .level .dc true, .write [s.cfg.gamma.g10],
        .level .dc false, .write [0x20], .level .dc false, .write [0x34], .level .dc false, .write [0x29]])

/-- 44_streamer.md R211: PLAY is accepted with the transport closed, its checks come next; with the transport open it
is a malformed request. -/
def Obligations.PlayRequestStartsTheChecks : Prop :=
  ∀ s : State, Ready s →
    (s.tpOpen = false → exec .play s = .next { s with
      busy := true, runOp := 0xE2, seq := .playCheck, todo := [] }) ∧
    (s.tpOpen = true → exec .play s = .next (errorState .usage 0xE2 s))

/-- 44_streamer.md R212, R213, 60_exceptions.md R249: the checks of PLAY in their order, and what passing them
leaves. The transport is closed then, so after a failed check nothing is called and the trace is as it was. The order of
the checks is the spec's decision D24 and the capacity check its decision D34 (log entry 21). -/
def Obligations.PlayChecksInOrder : Prop :=
  ∀ s : State, s.busy = true → s.seq = .playCheck → s.todo = [] → s.inFlight = none → s.err = 0 →
    s.undisturbed 1 = true →
    let t := { s with periodLatched := s.regs.periodMs, script := s.script.tail }
    (s.regs.periodMs = 0 → step s = .next (errorState .usage s.runOp t)) ∧
    (s.regs.periodMs ≠ 0 → s.cfg.fbCap < s.regs.fbLen.toNat → step s = .next (errorState .usage s.runOp t)) ∧
    (s.regs.periodMs ≠ 0 → s.regs.fbLen.toNat ≤ s.cfg.fbCap → s.regs.fbLen.toNat % s.cfg.frameBytes ≠ 0 →
      step s = .next (errorState .corruptInput s.runOp t)) ∧
    (s.tpOpen = false → (errorState .corruptInput s.runOp t).trace = s.trace ∧
      (errorState .corruptInput s.runOp t).todo = []) ∧
    (s.cfg.IsProduction → s.cfg.frameBytes = 61440) ∧
    (s.regs.periodMs ≠ 0 → s.regs.fbLen.toNat ≤ s.cfg.fbCap → s.regs.fbLen.toNat % s.cfg.frameBytes = 0 →
      step s = .next { t with
        nFrames := BitVec.ofNat 32 (s.regs.fbLen.toNat / s.cfg.frameBytes), seq := .playInit 0,
        todo := [.openCh s.cfg.spiHz s.cfg.spiMode] })

/-- 44_streamer.md R211, R214, R215: an accepted PLAY with good operands passes its checks, runs the whole
initialisation table, and reads the clock once into the deadline; it then stands before frame 0, or, over an empty
buffer, where the table ended (log entry 18). Everything else is unchanged. That the reference time is the clock as the
last primitive of the table returns is the model's choice (log entry 9). -/
def Obligations.PlayInitialisesThenCapturesTheClock : Prop :=
  ∀ s : State, FairFor 30 s → s.tpOpen = false → s.regs.periodMs ≠ 0 → s.regs.fbLen.toNat ≤ s.cfg.fbCap →
    s.regs.fbLen.toNat % s.cfg.frameBytes = 0 →
    ∃ t, exec .play s = .next t ∧ ∃ e : Env, s.env.nowNs ≤ e.nowNs ∧
      Runs 30 t { s with
        busy := true, runOp := 0xE2, seq := if s.regs.fbLen = 0 then .playInit 14 else .playFrame 0 .col,
        frameIdx := if s.regs.fbLen = 0 then s.frameIdx else 0, todo := [], inFlight := none,
        periodLatched := s.regs.periodMs, nFrames := BitVec.ofNat 32 (s.regs.fbLen.toNat / s.cfg.frameBytes),
        trace := s.trace ++ initTrace s.cfg, tpOpen := true, linesOut := true, dc := s.cfg.dcCommandLevel,
        rst := true, dlSec := e.nowNs / 1000000000, dlNsec := BitVec.ofNat 30 (e.nowNs % 1000000000),
        env := e, script := s.script.drop 30 }

/-- 44_streamer.md R217 to R220: one frame of PLAY. From the boundary before frame `i`, without a stop request: the
three commands in their order with the frame's bytes of FB, the deadline one period on, the sleep until it, and the
boundary before the next frame, the clock at or past the deadline. In production the range bytes are those of
R217. Everything else is unchanged. The form of the deadline is the spec's decision D21; one step a primitive and how
time passes are log entries 12 and 9. -/
def Obligations.FrameTripleThenSleep : Prop :=
  ∀ (s : State) (i : Nat), s.cfg.wf = true → AtBoundary i s → s.stopReq = false → i < s.nFrames.toNat →
    s.undisturbed 15 = true → s.env.answersOk 13 = true →
    let d := advanceDeadline s.dlSec s.dlNsec.toNat s.periodLatched.toNat
    (∃ e : Env, s.env.nowNs ≤ e.nowNs ∧ 1000000000 * d.1 + d.2 ≤ e.nowNs ∧
      Runs 15 s { s with
        trace := s.trace ++ frameTrace s.cfg (s.frameBytesOf i) ++ [.sleepUntil d.1 d.2]
        frameIdx := BitVec.ofNat 32 (if i + 1 < s.nFrames.toNat then i + 1 else 0)
        dc := !s.cfg.dcCommandLevel
        dlSec := d.1
        dlNsec := BitVec.ofNat 30 d.2
        seq := .playFrame (if i + 1 < s.nFrames.toNat then i + 1 else 0) .col
        env := e
        script := s.script.drop 15 }) ∧
    (s.cfg.IsProduction → frameTrace s.cfg (s.frameBytesOf i) =
      [.level .dc false, .write [0x2A], .level .dc true, .write [0x00, 0x00, 0x00, 0x7F],
        .level .dc false, .write [0x2B], .level .dc true, .write [0x00, 0x00, 0x00, 0x9F],
        .level .dc false, .write [0x2C], .level .dc true, .write (s.frameBytesOf i)])

/-- 44_streamer.md R222: "A frame in progress is always finished, including its sleep." Once the column range is to be
called, the frame runs to the boundary before the next one whatever `stop_req` is, and leaves it as it is (the spec's
decision D25; steps and time as log entries 12 and 9). -/
def Obligations.FrameInProgressIsFinished : Prop :=
  ∀ (s : State) (i : Nat), s.cfg.wf = true → s.busy = true → s.seq = .playFrame i .col →
    s.todo = colEvents s.cfg → s.inFlight = none → s.undisturbed 14 = true → s.env.answersOk 13 = true →
    let d := advanceDeadline s.dlSec s.dlNsec.toNat s.periodLatched.toNat
    ∃ e : Env, 1000000000 * d.1 + d.2 ≤ e.nowNs ∧
      Runs 14 s { s with
        trace := s.trace ++ frameTrace s.cfg (s.frameBytesOf i) ++ [.sleepUntil d.1 d.2]
        frameIdx := BitVec.ofNat 32 (if i + 1 < s.nFrames.toNat then i + 1 else 0)
        dc := !s.cfg.dcCommandLevel
        dlSec := d.1
        dlNsec := BitVec.ofNat 30 d.2
        seq := .playFrame (if i + 1 < s.nFrames.toNat then i + 1 else 0) .col
        todo := []
        env := e
        script := s.script.drop 14 }

/-- 44_streamer.md R222: "PLAY looks at `stop_req` only at a frame boundary, before the column-range command of the next
frame (and once per pass of an empty buffer)". Two states that differ in `stop_req` only take the same step, and differ
in it at most after it, unless PLAY stands at a boundary or in the empty loop, or the host reads STATUS, which shows
it (the spec's decision D25). -/
def Obligations.StopRequestIsReadAtTheBoundaryOnly : Prop :=
  ∀ (s t : State) (v : Bool), step s = .next t → (∀ rest, s.script ≠ .host (.readReg 0x10) :: rest) →
    (∀ i, s.seq = .playFrame i .col → s.todo ≠ []) → (s.seq = .playInit lastInitStep → s.todo ≠ []) →
    ∃ d : Bool, step { s with stopReq := v } = .next { t with stopReq := d }

/-- 44_streamer.md R219: the deadline moves by exactly one period and stays in (seconds, nanoseconds) form. -/
def Obligations.DeadlineAdvancesByOnePeriod : Prop :=
  ∀ sec nsec p : Nat, nsec < 1000000000 →
    (advanceDeadline sec nsec p).2 < 1000000000 ∧
    1000000000 * (advanceDeadline sec nsec p).1 + (advanceDeadline sec nsec p).2 =
      1000000000 * sec + nsec + 1000000 * p

/-- 44_streamer.md R216, R220, R221: the deadline grid. After `n` frames, whatever the answers of the transport took,
the sleeps made are at T + 1, ..., T + n periods, and PLAY stands before the frame `n` further on, the index wrapping
after the last frame. -/
def Obligations.DeadlinesStayOnTheGrid : Prop :=
  ∀ (n : Nat) (s : State) (i : Nat), s.cfg.wf = true → AtBoundary i s → s.stopReq = false → i < s.nFrames.toNat →
    s.dlNsec.toNat < 1000000000 → s.undisturbed (15 * n) = true → s.env.answersOk (13 * n) = true →
    ∃ t : State, Runs (15 * n) s t ∧ AtBoundary ((i + n) % s.nFrames.toNat) t ∧
      t.deadlineNs = s.deadlineNs + n * (1000000 * s.periodLatched.toNat) ∧
      sleepDeadlines t.trace = sleepDeadlines s.trace ++
        (List.range n).map (fun k => s.deadlineNs + (k + 1) * (1000000 * s.periodLatched.toNat))

/-- 44_streamer.md R215, R222: at a frame boundary, or in the loop over an empty buffer, a stop request is consumed:
`stop_req` is cleared, the transport is closed in the next step, PLAY completes without error, and the rest is
unchanged. Over an empty buffer, without a stop request, the pass does nothing and PLAY goes on; that a pass is one step
at PLAY_INIT(14) is the model's choice (log entry 18), and so is that the teardown's call is a step of its own after the
look (log entry 11). -/
def Obligations.StopIsConsumedAtTheFrameBoundary : Prop :=
  ∀ s : State, (∃ i, AtBoundary i s) ∨ AtEmptyLoop s →
    (s.stopReq = true → s.tpOpen = true → s.undisturbed 2 = true →
      step s = .next { s with
        stopReq := false, seq := .teardown, todo := [.closeCh], script := s.script.tail } ∧
      ∃ e : Env, s.env.nowNs ≤ e.nowNs ∧
        Runs 2 s { s with
          stopReq := false
          trace := s.trace ++ [.closeCh]
          tpOpen := false
          busy := false
          seq := .idle
          env := e
          script := s.script.drop 2 }) ∧
    (s.stopReq = true → s.tpOpen = false → s.undisturbed 1 = true →
      step s = .next { s with stopReq := false, busy := false, seq := .idle, script := s.script.tail }) ∧
    (s.stopReq = false → AtEmptyLoop s → s.undisturbed 1 = true → step s = .next (s.setScript s.script.tail))

/-- 44_streamer.md R222 (the spec's decision D25): STOP is latched exactly while PLAY runs and does nothing else
anywhere. -/
def Obligations.StopIsLatchedOnlyDuringPlay : Prop :=
  ∀ s : State, s.err = 0 →
    ((s.seq = .playCheck ∨ (∃ k, s.seq = .playInit k) ∨ ∃ i ph, s.seq = .playFrame i ph) →
      exec .stop s = .next { s with stopReq := true }) ∧
    ((s.seq = .idle ∨ s.seq = .cmd ∨ (∃ k, s.seq = .init k) ∨ (∃ r c, s.seq = .resample r c) ∨ s.seq = .teardown) →
      exec .stop s = .next s)

/-- 44_streamer.md R225, R226: CLOSE with the transport open is accepted and its one step closes it, whatever the
environment answers; with the transport closed it is a no-op that ends at once. Nothing else changes but the running
operation's code, the model's own register (log entry 14). -/
def Obligations.CloseTearsDown : Prop :=
  ∀ s : State, Ready s →
    (s.tpOpen = true → s.undisturbed 1 = true →
      exec .close s = .next { s with busy := true, runOp := 0xE4, seq := .teardown, todo := [.closeCh] } ∧
      ∃ e : Env, s.env.nowNs ≤ e.nowNs ∧
        Runs 1 { s with busy := true, runOp := 0xE4, seq := .teardown, todo := [.closeCh] }
          (closedState e { s with runOp := 0xE4 })) ∧
    (s.tpOpen = false → exec .close s = .next { s with runOp := 0xE4, seq := .idle, todo := [] })

/-- 44_streamer.md R225, 10_state.md R45, 60_exceptions.md R245: in the position TEARDOWN the block calls `tp.close()`
once, in one step, whatever the environment answers ("always returns; a failure is swallowed"), and is then at rest:
`tp_open`, `busy` 0, `seq` IDLE. This is the end of CLOSE, of a consumed STOP and of every error entry with the
transport open, which leaves HALTED (60_exceptions.md R252; that `ERR` is latched before this step is log entry 11).
Nothing else changes. -/
def Obligations.TeardownClosesTheTransportOnce : Prop :=
  ∀ s : State, s.busy = true → s.seq = .teardown → s.todo = [.closeCh] → s.inFlight = none →
    s.undisturbed 1 = true →
    step s = .next (closedState (s.env.next (s.env.nowNs + s.env.reply.dtNs)) s) ∧
      (s.err ≠ 0 → (closedState (s.env.next (s.env.nowNs + s.env.reply.dtNs)) s).opState = .halted)

/-! ### SCALER and PACKER -/

/-- 42_scaler.md R170, 43_packer.md R193: an accepted RESAMPLE stores every byte of its frame slot and no other byte
of FB, and changes nothing else but the datapath registers. The arithmetic is the spec's decisions D9 to D12 (log entry
21), the address formula is derived (20_memory.md R63), one step a pixel is the model's choice (log entry 12). -/
def Obligations.ResampleStoresTheWholeFrame : Prop :=
  ∀ s : State, Ready s → s.cfg.wf = true → frameValid s.cfg s.regs = true →
    s.undisturbed (s.cfg.panelH * s.cfg.panelW) = true →
    exec .resample s = .next { s with busy := true, runOp := 0xE1, seq := .resample 0 0, todo := [] } ∧
    ∃ u : State, Runs (s.cfg.panelH * s.cfg.panelW)
        { s with busy := true, runOp := 0xE1, seq := .resample 0 0, todo := [] } u ∧
      u = { s with
        busy := false, runOp := 0xE1, seq := .idle, todo := [], inFlight := none, fb := u.fb, dp := u.dp,
        script := s.script.drop (s.cfg.panelH * s.cfg.panelW) } ∧
      (∀ r < s.cfg.panelH, ∀ col < s.cfg.panelW, ∀ ch < 3,
        u.readByte .fb (fbAddr s.cfg s.regs.argSlot.toNat r col ch) =
          pack (quant (interp s.cfg s.regs (s.readByte .src) r col ch) (den s.cfg))) ∧
      ∀ a, (a < s.regs.argSlot.toNat * s.cfg.frameBytes ∨ (s.regs.argSlot.toNat + 1) * s.cfg.frameBytes ≤ a) →
        u.readByte .fb a = s.readByte .fb a

/-- 42_scaler.md R170, 60_exceptions.md R242 row 12: a malformed source frame or a slot that does not fit is a
ValidationError before any byte of FB is written. -/
def Obligations.ResampleRejectsBadFrames : Prop :=
  ∀ s : State, Ready s →
    (s.regs.srcW = 0 ∨ s.regs.srcH = 0 ∨ s.regs.srcPitch.toNat < 4 * s.regs.srcW.toNat ∨
      s.cfg.srcCap < (s.regs.srcH.toNat - 1) * s.regs.srcPitch.toNat + 4 * s.regs.srcW.toNat ∨
      s.cfg.fbCap < (s.regs.argSlot.toNat + 1) * s.cfg.frameBytes) →
    exec .resample s = .next (errorState .validation 0xE1 s)

/-- 42_scaler.md R172 to R180, in one formula over the source bytes, and in production the constants of R172 and
R173. -/
def Obligations.InterpolationFormula : Prop :=
  (∀ (c : Config) (l : Latches) (mem : Nat → Byte) (r col ch : Nat),
    let dx := c.panelH - 1
    let dy := c.panelW - 1
    let xn := c.cropLeft * dx + r * (c.cropW - 1)
    let yn := c.cropTop * dy + col * (c.cropH - 1)
    let x0 := min (xn / dx) (l.srcW.toNat - 1)
    let x1 := min (xn / dx + 1) (l.srcW.toNat - 1)
    let y0 := min (yn / dy) (l.srcH.toNat - 1)
    let y1 := min (yn / dy + 1) (l.srcH.toNat - 1)
    let p := fun x y => (mem (y * l.srcPitch.toNat + 4 * x + (2 - ch))).toNat
    interp c l mem r col ch =
      (dx - xn % dx) * (dy - yn % dy) * p x0 y0 + xn % dx * (dy - yn % dy) * p x1 y0 +
        (dx - xn % dx) * (yn % dy) * p x0 y1 + xn % dx * (yn % dy) * p x1 y1) ∧
  ∀ (c : Config) (r col : Nat), c.IsProduction →
    xNum c r = 5247 + 374 * r ∧ yNum c col = 299 * col ∧ den c = 20193

/-- 43_packer.md R191, R192, R195: the quantiser is `floor(value * 63/255 + 1/2)` with `value = N / D`, at most 63 for
a value up to 255, and the packed byte has the sample in bits 7:2 and zero in bits 1:0. In production no tie exists and
the sum fits 30 bits. -/
def Obligations.QuantiserRoundsToNearest : Prop :=
  (∀ n d : Nat, 0 < d →
    ((quant n d : Nat) : Int) = ⌊(n : Rat) / (d : Rat) * 63 / 255 + 1 / 2⌋ ∧
    (n ≤ 255 * d → quant n d ≤ 63 ∧ (pack (quant n d)).toNat = 4 * quant n d ∧
      (pack (quant n d)).extractLsb' 2 6 = BitVec.ofNat 6 (quant n d) ∧ (pack (quant n d)).extractLsb' 0 2 = 0) ∧
    ∀ m, n ≤ m → quant n d ≤ quant m d) ∧
  ∀ (c : Config) (n k : Nat), c.IsProduction →
    126 * n ≠ 255 * den c * (2 * k + 1) ∧ (n ≤ 255 * den c → 126 * n + 255 * den c ≤ 653950305)

/-- 42_scaler.md R179, R180: the weights sum to `D`, and `N` is at most `255 * D`. -/
def Obligations.WeightsSumToTheDenominator : Prop :=
  ∀ (c : Config) (l : Latches) (mem : Nat → Byte) (r col ch : Nat), c.wf = true →
    w00 c r col + w10 c r col + w01 c r col + w11 c r col = den c ∧ interp c l mem r col ch ≤ 255 * den c

/-- 42_scaler.md R182, 43_packer.md R194: a source frame of one channel value gives that value's byte at every panel
position, whatever the frame's size. -/
def Obligations.UniformSourceGivesUniformFrame : Prop :=
  ∀ (c : Config) (l : Latches) (mem : Nat → Byte) (r col ch k : Nat), c.wf = true → 1 ≤ l.srcW.toNat →
    1 ≤ l.srcH.toNat →
    (∀ x < l.srcW.toNat, ∀ y < l.srcH.toNat, sample mem l.srcPitch.toNat x y ch = k) →
    interp c l mem r col ch = den c * k ∧ pixelByte c l mem r col ch = pack ((126 * k + 255) / 510)

/-- 42_scaler.md R178, 20_memory.md R72: for a frame RESAMPLE accepts, every address it reads for a destination pixel
lies below `SRC_CAP`, and every address it writes lies in FB. -/
def Obligations.ResampleStaysInBounds : Prop :=
  ∀ (c : Config) (l : Latches), c.wf = true → frameValid c l = true →
    (∀ i j ch : Nat, srcAddr l.srcPitch.toNat (clampIndex i l.srcW.toNat) (clampIndex j l.srcH.toNat) ch < c.srcCap) ∧
    ∀ r < c.panelH, ∀ col < c.panelW, ∀ ch < 3, fbAddr c l.argSlot.toNat r col ch < c.fbCap

/-- 20_memory.md R61, R62, 42_scaler.md R183: the alpha byte of a pixel and the padding of a row are never read. Two
source stores that agree on blue, green and red of every pixel give the same values. -/
def Obligations.AlphaAndPaddingAreNeverRead : Prop :=
  ∀ (c : Config) (l : Latches) (mem mem' : Nat → Byte) (r col ch : Nat), ch < 3 → 1 ≤ l.srcW.toNat →
    1 ≤ l.srcH.toNat →
    (∀ x < l.srcW.toNat, ∀ y < l.srcH.toNat, ∀ k < 3,
      mem (y * l.srcPitch.toNat + 4 * x + k) = mem' (y * l.srcPitch.toNat + 4 * x + k)) →
    interp c l mem r col ch = interp c l mem' r col ch

/-! ### Errors and hangs -/

/-- 10_state.md R47, 60_exceptions.md R243, R245, R246: a `fail` of open, level or write raises IOError at that
primitive: the failing event is the last, and the teardown's `tp.close()` is the one call left if the transport is open
(it is a step of its own, 10_state.md R45; log entry 11). -/
def Obligations.TransportFailureRaisesIoError : Prop :=
  ∀ (s : State) (p : Event) (rest : List Event) (k : Nat), s.busy = true → s.err = 0 → s.todo = p :: rest →
    ((∃ hz mode, p = .openCh hz mode) ∨ (∃ line v, p = .level line v) ∨ ∃ l, p = .write l) →
    s.env.reply.kind = .fail k → s.undisturbed 1 = true →
    step s = .next (errorState .io s.runOp { s with
      trace := s.trace ++ (if s.inFlight = none then [p] else [])
      env := s.env.next (s.env.nowNs + s.env.reply.dtNs)
      partialWrite := match p with
        | .write l => some (l.take k)
        | _ => s.partialWrite
      script := s.script.tail })

/-- 70_reset_and_hazards.md R285, 10_state.md R47: a primitive that is never answered hangs the block, for any number
of steps: `busy` stays 1, `seq` stays, the event stands once. -/
def Obligations.HungPrimitiveHangsTheBlock : Prop :=
  ∀ (n : Nat) (s : State) (p : Event) (rest : List Event), s.busy = true → s.todo = p :: rest →
    ((∃ hz mode, p = .openCh hz mode) ∨ (∃ line v, p = .level line v) ∨ (∃ l, p = .write l) ∨ ∃ ms, p = .pause ms) →
    s.env.replies = [] → s.env.rest.kind = .wait → s.undisturbed (n + 1) = true →
    ∃ t : State, Runs (n + 1) s t ∧ t.busy = true ∧ t.seq = s.seq ∧ t.todo = s.todo ∧
      t.trace = s.trace ++ (if s.inFlight = none then [p] else []) ∧ t.stopReq = s.stopReq ∧ t.err = s.err

/-- 10_state.md R31, R32: the first error stays: no step but reset changes `ERR` or `ERR_OP` once `ERR` is not 0. -/
def Obligations.ErrorIsSticky : Prop :=
  ∀ s t : State, s.err ≠ 0 → step s = .next t → (∀ rest, s.script ≠ .host .assertReset :: rest) →
    t.err = s.err ∧ t.errOp = s.errOp

/-! ### Whole-machine rules -/

/-- 10_state.md R46: events are appended in the order the block causes them; no step but reset takes one back. -/
def Obligations.TraceOnlyGrows : Prop :=
  ∀ s t : State, step s = .next t → (∀ rest, s.script ≠ .host .assertReset :: rest) → s.trace <+: t.trace

/-- 10_state.md R23, R33: the operand latches are never written by the block; only a host write while not busy, or
reset, changes them. -/
def Obligations.LatchesChangeOnlyByTheHost : Prop :=
  ∀ s t : State, step s = .next t → t.regs ≠ s.regs →
    ∃ rest, s.script = .host .assertReset :: rest ∨
      ∃ num v, num ≤ 0x0C ∧ s.script = .host (.writeReg num v) :: rest ∧ s.busy = false ∧
        t.regs = s.regs.write num v

/-- 20_memory.md R71, R75, 70_reset_and_hazards.md R284: while an operation runs SRC and PAL do not change, and FB
changes only in RESAMPLE. -/
def Obligations.MemoriesAreFrozenWhileBusy : Prop :=
  ∀ s t : State, s.busy = true → step s = .next t → (∀ rest, s.script ≠ .host .assertReset :: rest) →
    t.src = s.src ∧ t.pal = s.pal ∧ (t.fb = s.fb ∨ ∃ r c, s.seq = .resample r c)

/-- 10_state.md R22: no operation writes the configuration and reset does not change it. -/
def Obligations.ConfigurationIsConstant : Prop :=
  ∀ s t : State, step s = .next t → t.cfg = s.cfg

/-- 10_state.md R48: the monotonic clock never decreases. -/
def Obligations.ClockNeverDecreases : Prop :=
  ∀ s t : State, step s = .next t → s.env.nowNs ≤ t.env.nowNs

/-- 10_state.md R30: the level of the mode line is never read to decide anything. Two states that differ in `dc` only
take the same step, and differ in `dc` at most after it, unless the host reads STATUS, which shows `dc`. -/
def Obligations.ModeLineIsNeverRead : Prop :=
  ∀ (s t : State) (v : Bool), step s = .next t → (∀ rest, s.script ≠ .host (.readReg 0x10) :: rest) →
    ∃ d : Bool, step { s with dc := v } = .next { t with dc := d }

/-! ### Invariants -/

/-- The three invariants hold right after reset. -/
def Obligations.InvariantsHoldAtReset : Prop :=
  ControlInv State.reset ∧ MemoryInv State.reset ∧ WireInv State.reset

/-- 10_state.md R24, R26, 60_exceptions.md R252: every step keeps the control invariant. What it says of error entry's
teardown is log entry 11, of the loop over an empty buffer log entry 18. -/
def Obligations.StepKeepsControlInv : Prop :=
  ∀ s t : State, ControlInv s → step s = .next t → ControlInv t

/-- 20_memory.md R72: every step keeps every memory in canonical form and inside its capacity. The control invariant
supplies that a running RESAMPLE was validated. -/
def Obligations.StepKeepsMemoryInv : Prop :=
  ∀ s t : State, ControlInv s → MemoryInv s → step s = .next t → MemoryInv t

/-- 30_encoding.md R99, 70_reset_and_hazards.md R282: every step keeps the wire discipline: each byte group is
preceded by the write of the mode line, and in command mode only the sixteen opcodes are ever sent. -/
def Obligations.StepKeepsWireInv : Prop :=
  ∀ s t : State, ControlInv s → WireInv s → step s = .next t → WireInv t

/-! ### The host port -/

/-- 10_state.md R28, R33: the STATUS register, bit by bit, as a host read of 0x10 returns it. -/
def Obligations.StatusRegisterReads : Prop :=
  ∀ (s : State) (rest : List Turn), s.script = .host (.readReg 0x10) :: rest →
    ∃ t, step s = .next t ∧ t = { s with script := rest, rdata := t.rdata } ∧
      t.rdata.getLsbD 0 = s.busy ∧ t.rdata.getLsbD 1 = s.tpOpen ∧ (t.rdata.getLsbD 2 = true ↔ s.err ≠ 0) ∧
      t.rdata.getLsbD 3 = s.stopReq ∧ t.rdata.getLsbD 4 = s.dc ∧ t.rdata.getLsbD 5 = s.rst ∧
      ∀ k, 6 ≤ k → t.rdata.getLsbD k = false

/-- 10_state.md R33: a register number that is not in the list reads 0 and ignores writes; the read-only registers
ignore writes; a latch ignores writes while busy. R33 says of the read-only registers only that they are: that a write
of one is ignored is the model's choice (log entry 17). -/
def Obligations.ReservedAndLockedRegisters : Prop :=
  ∀ (s : State) (rest : List Turn) (num : Nat) (v : Word),
    (0x0C < num → num ≠ 0x10 → num ≠ 0x11 → num ≠ 0x12 → num ≠ 0x1F → s.script = .host (.readReg num) :: rest →
      step s = .next { s with script := rest, rdata := 0 }) ∧
    (0x0C < num ∨ s.busy = true → num ≠ 0x1F → s.script = .host (.writeReg num v) :: rest →
      step s = .next { s with script := rest })

/-- The width of an operand latch (10_state.md R23). -/
def latchWidth (num : Nat) : Nat :=
  if num ≤ 0x01 then 16 else if num ≤ 0x03 then 8 else if num = 0x04 then 6 else 32

/-- 10_state.md R23, R33: a host write of an operand latch while not busy keeps the low bits of the latch's width (log
entry 17), changes no other latch and nothing else, and the value reads back zero-extended. -/
def Obligations.LatchWriteReadsBack : Prop :=
  ∀ (s : State) (rest : List Turn) (num : Nat) (v : Word), s.busy = false → num ≤ 0x0C →
    s.script = .host (.writeReg num v) :: rest →
    ∃ t, step s = .next t ∧ t = { s with script := rest, regs := t.regs } ∧
      (t.readReg num).toNat = v.toNat % 2 ^ latchWidth num ∧
      ∀ num' ≤ 0x0C, num' ≠ num → t.readReg num' = s.readReg num'

/-- 10_state.md R23, R31 to R33, 70_reset_and_hazards.md R275: a host read of an operand latch, of `ERR`, of `ERR_OP` or
of a memory byte returns it zero-extended, in every state, and changes nothing (what it returned is log entry 15). -/
def Obligations.HostReadsChangeNothing : Prop :=
  ∀ (s : State) (rest : List Turn),
    (∀ (num : Nat) (v : Word), (num, v) ∈ [(0x00, s.regs.argBegin.setWidth 32), (0x01, s.regs.argEnd.setWidth 32),
        (0x02, s.regs.argCurve.setWidth 32), (0x03, s.regs.argBpp.setWidth 32), (0x04, s.regs.argFlags.setWidth 32),
        (0x05, s.regs.argAddr), (0x06, s.regs.argLen), (0x07, s.regs.argSlot), (0x08, s.regs.srcH),
        (0x09, s.regs.srcW), (0x0A, s.regs.srcPitch), (0x0B, s.regs.fbLen), (0x0C, s.regs.periodMs),
        (0x11, s.err.setWidth 32), (0x12, s.errOp.setWidth 32)] →
      s.script = .host (.readReg num) :: rest → step s = .next { s with script := rest, rdata := v }) ∧
    ∀ (sp : Space) (a : Nat), a < capacity s.cfg sp → s.script = .host (.readMem sp a) :: rest →
      step s = .next { s with script := rest, rdata := (s.readByte sp a).setWidth 32 }

/-- 20_memory.md R60, 70_reset_and_hazards.md R275: a host write of a memory byte while not busy stores that byte and
leaves every other byte and everything else alone; the byte then reads back. -/
def Obligations.HostByteWriteStoresThatByte : Prop :=
  ∀ (s : State) (rest : List Turn) (sp : Space) (a : Nat) (v : Byte), s.busy = false → a < capacity s.cfg sp →
    s.script = .host (.writeMem sp a v) :: rest →
    ∃ t, step s = .next t ∧ t = { s with script := rest, src := t.src, fb := t.fb, pal := t.pal } ∧
      t.readByte sp a = v ∧ (∀ b, b ≠ a → t.readByte sp b = s.readByte sp b) ∧
      ∀ sp', sp' ≠ sp → t.mem sp' = s.mem sp'

/-! ### The tagged byte stream -/

/-- 10_state.md R46: what a completed panel command adds to the tagged byte stream: its opcode (30_encoding.md R98) at
the command level and its parameter bytes (R96), if it has any, at the data level (R90 to R94), for each of the sixteen.
The operands are valid: 41_commands_param.md R141 (curves), R144, R145, R147 (ranges), R150 (payload), R155, R157
(palette, in the order of the spec's decision D26), 30_encoding.md R96 (color). Levels and bit table are log entry 8,
palette order and limits log entry 21. -/
def Obligations.CommandsAddTheirTaggedBytes : Prop :=
  ∀ s : State, s.tpOpen = true → FairFor 4 s →
    let c := s.cfg.dcCommandLevel
    let tagged := fun (op : Byte) (params : List Byte) => (c, op) :: params.map (fun b => (!c, b))
    (∀ (i : Instr) (op : Byte), (i, op) ∈ [(Instr.reset, (0x01 : Byte)), (.sleepIn, 0x10), (.sleepOut, 0x11),
        (.invertOff, 0x20), (.invertOn, 0x21), (.displayOff, 0x28), (.displayOn, 0x29), (.tearingEffectOff, 0x34),
        (.tearingEffectOn, 0x35)] → AddsTaggedBytes i (tagged op []) s) ∧
    (∀ code : Byte, (s.regs.argCurve = 10 ∧ code = s.cfg.gamma.g10) ∨ (s.regs.argCurve = 18 ∧ code = s.cfg.gamma.g18) ∨
        (s.regs.argCurve = 22 ∧ code = s.cfg.gamma.g22) ∨ (s.regs.argCurve = 25 ∧ code = s.cfg.gamma.g25) →
      AddsTaggedBytes .setGamma (tagged 0x26 [code]) s) ∧
    (s.regs.argEnd.toNat ≤ s.cfg.panelW - 1 → s.regs.argBegin.toNat ≤ s.regs.argEnd.toNat →
      AddsTaggedBytes .setColumnRange
        (tagged 0x2A [hi s.regs.argBegin, lo s.regs.argBegin, hi s.regs.argEnd, lo s.regs.argEnd]) s) ∧
    (s.regs.argEnd.toNat ≤ s.cfg.panelH - 1 → s.regs.argBegin.toNat ≤ s.regs.argEnd.toNat →
      AddsTaggedBytes .setRowRange
        (tagged 0x2B [hi s.regs.argBegin, lo s.regs.argBegin, hi s.regs.argEnd, lo s.regs.argEnd]) s) ∧
    (s.regs.argAddr.toNat + s.regs.argLen.toNat ≤ s.cfg.fbCap →
      AddsTaggedBytes .writeMemory (tagged 0x2C
        ((List.range s.regs.argLen.toNat).map (fun j => s.readByte .fb (s.regs.argAddr.toNat + j)))) s) ∧
    (paletteOk s →
      AddsTaggedBytes .setPalette (tagged 0x2D ((List.range 128).map (fun j => s.readByte .pal j))) s) ∧
    AddsTaggedBytes .setAddressMode (tagged 0x36 [addressByte s.cfg.addrBit (latchFlags s.regs.argFlags)]) s ∧
    ∀ code : Byte, (s.regs.argBpp = 12 ∧ code = 0x03) ∨ (s.regs.argBpp = 16 ∧ code = 0x05) ∨
        (s.regs.argBpp = 18 ∧ code = 0x06) → AddsTaggedBytes .setColorMode (tagged 0x3A [code]) s
end

