-- ==== Sys2Proof/Laws/State.lean ====
section
/-! SUPPORT. One lemma per field per named update of the state, true by rfl, so that no later proof unfolds an
update. -/

namespace Sys2Proof.Machine

/-! ### complete -/

@[simp] theorem State.complete_cfg (s : State) : s.complete.cfg = s.cfg := rfl
@[simp] theorem State.complete_regs (s : State) : s.complete.regs = s.regs := rfl
@[simp] theorem State.complete_seq (s : State) : s.complete.seq = .idle := rfl
@[simp] theorem State.complete_dp (s : State) : s.complete.dp = s.dp := rfl
@[simp] theorem State.complete_frameIdx (s : State) : s.complete.frameIdx = s.frameIdx := rfl
@[simp] theorem State.complete_nFrames (s : State) : s.complete.nFrames = s.nFrames := rfl
@[simp] theorem State.complete_dlSec (s : State) : s.complete.dlSec = s.dlSec := rfl
@[simp] theorem State.complete_dlNsec (s : State) : s.complete.dlNsec = s.dlNsec := rfl
@[simp] theorem State.complete_periodLatched (s : State) : s.complete.periodLatched = s.periodLatched := rfl
@[simp] theorem State.complete_busy (s : State) : s.complete.busy = false := rfl
@[simp] theorem State.complete_tpOpen (s : State) : s.complete.tpOpen = s.tpOpen := rfl
@[simp] theorem State.complete_stopReq (s : State) : s.complete.stopReq = s.stopReq := rfl
@[simp] theorem State.complete_dc (s : State) : s.complete.dc = s.dc := rfl
@[simp] theorem State.complete_rst (s : State) : s.complete.rst = s.rst := rfl
@[simp] theorem State.complete_linesOut (s : State) : s.complete.linesOut = s.linesOut := rfl
@[simp] theorem State.complete_err (s : State) : s.complete.err = s.err := rfl
@[simp] theorem State.complete_errOp (s : State) : s.complete.errOp = s.errOp := rfl
@[simp] theorem State.complete_runOp (s : State) : s.complete.runOp = s.runOp := rfl
@[simp] theorem State.complete_src (s : State) : s.complete.src = s.src := rfl
@[simp] theorem State.complete_fb (s : State) : s.complete.fb = s.fb := rfl
@[simp] theorem State.complete_pal (s : State) : s.complete.pal = s.pal := rfl
@[simp] theorem State.complete_trace (s : State) : s.complete.trace = s.trace := rfl
@[simp] theorem State.complete_todo (s : State) : s.complete.todo = [] := rfl
@[simp] theorem State.complete_inFlight (s : State) : s.complete.inFlight = none := rfl
@[simp] theorem State.complete_partialWrite (s : State) : s.complete.partialWrite = s.partialWrite := rfl
@[simp] theorem State.complete_held (s : State) : s.complete.held = s.held := rfl
@[simp] theorem State.complete_rdata (s : State) : s.complete.rdata = s.rdata := rfl
@[simp] theorem State.complete_env (s : State) : s.complete.env = s.env := rfl
@[simp] theorem State.complete_script (s : State) : s.complete.script = s.script := rfl

/-! ### accept -/

@[simp] theorem State.accept_cfg (code : Byte) (s : State) : (s.accept code).cfg = s.cfg := rfl
@[simp] theorem State.accept_regs (code : Byte) (s : State) : (s.accept code).regs = s.regs := rfl
@[simp] theorem State.accept_seq (code : Byte) (s : State) : (s.accept code).seq = s.seq := rfl
@[simp] theorem State.accept_dp (code : Byte) (s : State) : (s.accept code).dp = s.dp := rfl
@[simp] theorem State.accept_frameIdx (code : Byte) (s : State) : (s.accept code).frameIdx = s.frameIdx := rfl
@[simp] theorem State.accept_nFrames (code : Byte) (s : State) : (s.accept code).nFrames = s.nFrames := rfl
@[simp] theorem State.accept_dlSec (code : Byte) (s : State) : (s.accept code).dlSec = s.dlSec := rfl
@[simp] theorem State.accept_dlNsec (code : Byte) (s : State) : (s.accept code).dlNsec = s.dlNsec := rfl
@[simp] theorem State.accept_periodLatched (code : Byte) (s : State) :
    (s.accept code).periodLatched = s.periodLatched := rfl
@[simp] theorem State.accept_busy (code : Byte) (s : State) : (s.accept code).busy = true := rfl
@[simp] theorem State.accept_tpOpen (code : Byte) (s : State) : (s.accept code).tpOpen = s.tpOpen := rfl
@[simp] theorem State.accept_stopReq (code : Byte) (s : State) : (s.accept code).stopReq = s.stopReq := rfl
@[simp] theorem State.accept_dc (code : Byte) (s : State) : (s.accept code).dc = s.dc := rfl
@[simp] theorem State.accept_rst (code : Byte) (s : State) : (s.accept code).rst = s.rst := rfl
@[simp] theorem State.accept_linesOut (code : Byte) (s : State) : (s.accept code).linesOut = s.linesOut := rfl
@[simp] theorem State.accept_err (code : Byte) (s : State) : (s.accept code).err = s.err := rfl
@[simp] theorem State.accept_errOp (code : Byte) (s : State) : (s.accept code).errOp = s.errOp := rfl
@[simp] theorem State.accept_runOp (code : Byte) (s : State) : (s.accept code).runOp = code := rfl
@[simp] theorem State.accept_src (code : Byte) (s : State) : (s.accept code).src = s.src := rfl
@[simp] theorem State.accept_fb (code : Byte) (s : State) : (s.accept code).fb = s.fb := rfl
@[simp] theorem State.accept_pal (code : Byte) (s : State) : (s.accept code).pal = s.pal := rfl
@[simp] theorem State.accept_trace (code : Byte) (s : State) : (s.accept code).trace = s.trace := rfl
@[simp] theorem State.accept_todo (code : Byte) (s : State) : (s.accept code).todo = s.todo := rfl
@[simp] theorem State.accept_inFlight (code : Byte) (s : State) : (s.accept code).inFlight = s.inFlight := rfl
@[simp] theorem State.accept_partialWrite (code : Byte) (s : State) :
    (s.accept code).partialWrite = s.partialWrite := rfl
@[simp] theorem State.accept_held (code : Byte) (s : State) : (s.accept code).held = s.held := rfl
@[simp] theorem State.accept_rdata (code : Byte) (s : State) : (s.accept code).rdata = s.rdata := rfl
@[simp] theorem State.accept_env (code : Byte) (s : State) : (s.accept code).env = s.env := rfl
@[simp] theorem State.accept_script (code : Byte) (s : State) : (s.accept code).script = s.script := rfl

/-! ### hold -/

@[simp] theorem State.hold_cfg (code : Byte) (s : State) : (s.hold code).cfg = s.cfg := rfl
@[simp] theorem State.hold_regs (code : Byte) (s : State) : (s.hold code).regs = s.regs := rfl
@[simp] theorem State.hold_seq (code : Byte) (s : State) : (s.hold code).seq = s.seq := rfl
@[simp] theorem State.hold_dp (code : Byte) (s : State) : (s.hold code).dp = s.dp := rfl
@[simp] theorem State.hold_frameIdx (code : Byte) (s : State) : (s.hold code).frameIdx = s.frameIdx := rfl
@[simp] theorem State.hold_nFrames (code : Byte) (s : State) : (s.hold code).nFrames = s.nFrames := rfl
@[simp] theorem State.hold_dlSec (code : Byte) (s : State) : (s.hold code).dlSec = s.dlSec := rfl
@[simp] theorem State.hold_dlNsec (code : Byte) (s : State) : (s.hold code).dlNsec = s.dlNsec := rfl
@[simp] theorem State.hold_periodLatched (code : Byte) (s : State) :
    (s.hold code).periodLatched = s.periodLatched := rfl
@[simp] theorem State.hold_busy (code : Byte) (s : State) : (s.hold code).busy = s.busy := rfl
@[simp] theorem State.hold_tpOpen (code : Byte) (s : State) : (s.hold code).tpOpen = s.tpOpen := rfl
@[simp] theorem State.hold_stopReq (code : Byte) (s : State) : (s.hold code).stopReq = s.stopReq := rfl
@[simp] theorem State.hold_dc (code : Byte) (s : State) : (s.hold code).dc = s.dc := rfl
@[simp] theorem State.hold_rst (code : Byte) (s : State) : (s.hold code).rst = s.rst := rfl
@[simp] theorem State.hold_linesOut (code : Byte) (s : State) : (s.hold code).linesOut = s.linesOut := rfl
@[simp] theorem State.hold_err (code : Byte) (s : State) : (s.hold code).err = s.err := rfl
@[simp] theorem State.hold_errOp (code : Byte) (s : State) : (s.hold code).errOp = s.errOp := rfl
@[simp] theorem State.hold_runOp (code : Byte) (s : State) : (s.hold code).runOp = s.runOp := rfl
@[simp] theorem State.hold_src (code : Byte) (s : State) : (s.hold code).src = s.src := rfl
@[simp] theorem State.hold_fb (code : Byte) (s : State) : (s.hold code).fb = s.fb := rfl
@[simp] theorem State.hold_pal (code : Byte) (s : State) : (s.hold code).pal = s.pal := rfl
@[simp] theorem State.hold_trace (code : Byte) (s : State) : (s.hold code).trace = s.trace := rfl
@[simp] theorem State.hold_todo (code : Byte) (s : State) : (s.hold code).todo = s.todo := rfl
@[simp] theorem State.hold_inFlight (code : Byte) (s : State) : (s.hold code).inFlight = s.inFlight := rfl
@[simp] theorem State.hold_partialWrite (code : Byte) (s : State) : (s.hold code).partialWrite = s.partialWrite := rfl
@[simp] theorem State.hold_held (code : Byte) (s : State) : (s.hold code).held = s.held ++ [code] := rfl
@[simp] theorem State.hold_rdata (code : Byte) (s : State) : (s.hold code).rdata = s.rdata := rfl
@[simp] theorem State.hold_env (code : Byte) (s : State) : (s.hold code).env = s.env := rfl
@[simp] theorem State.hold_script (code : Byte) (s : State) : (s.hold code).script = s.script := rfl

/-! ### teardown -/

@[simp] theorem State.teardown_cfg (s : State) : s.teardown.cfg = s.cfg := rfl
@[simp] theorem State.teardown_regs (s : State) : s.teardown.regs = s.regs := rfl
@[simp] theorem State.teardown_seq (s : State) :
    s.teardown.seq = if s.tpOpen then .teardown else .idle := rfl
@[simp] theorem State.teardown_dp (s : State) : s.teardown.dp = s.dp := rfl
@[simp] theorem State.teardown_frameIdx (s : State) : s.teardown.frameIdx = s.frameIdx := rfl
@[simp] theorem State.teardown_nFrames (s : State) : s.teardown.nFrames = s.nFrames := rfl
@[simp] theorem State.teardown_dlSec (s : State) : s.teardown.dlSec = s.dlSec := rfl
@[simp] theorem State.teardown_dlNsec (s : State) : s.teardown.dlNsec = s.dlNsec := rfl
@[simp] theorem State.teardown_periodLatched (s : State) : s.teardown.periodLatched = s.periodLatched := rfl
@[simp] theorem State.teardown_busy (s : State) : s.teardown.busy = s.tpOpen := rfl
@[simp] theorem State.teardown_tpOpen (s : State) : s.teardown.tpOpen = s.tpOpen := rfl
@[simp] theorem State.teardown_stopReq (s : State) : s.teardown.stopReq = s.stopReq := rfl
@[simp] theorem State.teardown_dc (s : State) : s.teardown.dc = s.dc := rfl
@[simp] theorem State.teardown_rst (s : State) : s.teardown.rst = s.rst := rfl
@[simp] theorem State.teardown_linesOut (s : State) : s.teardown.linesOut = s.linesOut := rfl
@[simp] theorem State.teardown_err (s : State) : s.teardown.err = s.err := rfl
@[simp] theorem State.teardown_errOp (s : State) : s.teardown.errOp = s.errOp := rfl
@[simp] theorem State.teardown_runOp (s : State) : s.teardown.runOp = s.runOp := rfl
@[simp] theorem State.teardown_src (s : State) : s.teardown.src = s.src := rfl
@[simp] theorem State.teardown_fb (s : State) : s.teardown.fb = s.fb := rfl
@[simp] theorem State.teardown_pal (s : State) : s.teardown.pal = s.pal := rfl
@[simp] theorem State.teardown_trace (s : State) : s.teardown.trace = s.trace := rfl
@[simp] theorem State.teardown_todo (s : State) :
    s.teardown.todo = if s.tpOpen then [.closeCh] else [] := rfl
@[simp] theorem State.teardown_inFlight (s : State) : s.teardown.inFlight = none := rfl
@[simp] theorem State.teardown_partialWrite (s : State) : s.teardown.partialWrite = s.partialWrite := rfl
@[simp] theorem State.teardown_held (s : State) : s.teardown.held = s.held := rfl
@[simp] theorem State.teardown_rdata (s : State) : s.teardown.rdata = s.rdata := rfl
@[simp] theorem State.teardown_env (s : State) : s.teardown.env = s.env := rfl
@[simp] theorem State.teardown_script (s : State) : s.teardown.script = s.script := rfl

/-! ### raise -/

@[simp] theorem State.raise_cfg (e : ErrClass) (s : State) : (s.raise e).cfg = s.cfg := rfl
@[simp] theorem State.raise_regs (e : ErrClass) (s : State) : (s.raise e).regs = s.regs := rfl
@[simp] theorem State.raise_seq (e : ErrClass) (s : State) :
    (s.raise e).seq = if s.tpOpen then .teardown else .idle := rfl
@[simp] theorem State.raise_dp (e : ErrClass) (s : State) : (s.raise e).dp = s.dp := rfl
@[simp] theorem State.raise_frameIdx (e : ErrClass) (s : State) : (s.raise e).frameIdx = s.frameIdx := rfl
@[simp] theorem State.raise_nFrames (e : ErrClass) (s : State) : (s.raise e).nFrames = s.nFrames := rfl
@[simp] theorem State.raise_dlSec (e : ErrClass) (s : State) : (s.raise e).dlSec = s.dlSec := rfl
@[simp] theorem State.raise_dlNsec (e : ErrClass) (s : State) : (s.raise e).dlNsec = s.dlNsec := rfl
@[simp] theorem State.raise_periodLatched (e : ErrClass) (s : State) :
    (s.raise e).periodLatched = s.periodLatched := rfl
@[simp] theorem State.raise_busy (e : ErrClass) (s : State) : (s.raise e).busy = s.tpOpen := rfl
@[simp] theorem State.raise_tpOpen (e : ErrClass) (s : State) : (s.raise e).tpOpen = s.tpOpen := rfl
@[simp] theorem State.raise_stopReq (e : ErrClass) (s : State) : (s.raise e).stopReq = false := rfl
@[simp] theorem State.raise_dc (e : ErrClass) (s : State) : (s.raise e).dc = s.dc := rfl
@[simp] theorem State.raise_rst (e : ErrClass) (s : State) : (s.raise e).rst = s.rst := rfl
@[simp] theorem State.raise_linesOut (e : ErrClass) (s : State) : (s.raise e).linesOut = s.linesOut := rfl
@[simp] theorem State.raise_err (e : ErrClass) (s : State) :
    (s.raise e).err = if s.err = 0 then e.code else s.err := rfl
@[simp] theorem State.raise_errOp (e : ErrClass) (s : State) :
    (s.raise e).errOp = if s.err = 0 then s.runOp else s.errOp := rfl
@[simp] theorem State.raise_runOp (e : ErrClass) (s : State) : (s.raise e).runOp = s.runOp := rfl
@[simp] theorem State.raise_src (e : ErrClass) (s : State) : (s.raise e).src = s.src := rfl
@[simp] theorem State.raise_fb (e : ErrClass) (s : State) : (s.raise e).fb = s.fb := rfl
@[simp] theorem State.raise_pal (e : ErrClass) (s : State) : (s.raise e).pal = s.pal := rfl
@[simp] theorem State.raise_trace (e : ErrClass) (s : State) : (s.raise e).trace = s.trace := rfl
@[simp] theorem State.raise_todo (e : ErrClass) (s : State) :
    (s.raise e).todo = if s.tpOpen then [.closeCh] else [] := rfl
@[simp] theorem State.raise_inFlight (e : ErrClass) (s : State) : (s.raise e).inFlight = none := rfl
@[simp] theorem State.raise_partialWrite (e : ErrClass) (s : State) : (s.raise e).partialWrite = s.partialWrite := rfl
@[simp] theorem State.raise_held (e : ErrClass) (s : State) : (s.raise e).held = s.held := rfl
@[simp] theorem State.raise_rdata (e : ErrClass) (s : State) : (s.raise e).rdata = s.rdata := rfl
@[simp] theorem State.raise_env (e : ErrClass) (s : State) : (s.raise e).env = s.env := rfl
@[simp] theorem State.raise_script (e : ErrClass) (s : State) : (s.raise e).script = s.script := rfl

/-! ### enter -/

@[simp] theorem State.enter_cfg (q : Seq) (s : State) : (s.enter q).cfg = s.cfg := rfl
@[simp] theorem State.enter_regs (q : Seq) (s : State) : (s.enter q).regs = s.regs := rfl
@[simp] theorem State.enter_seq (q : Seq) (s : State) : (s.enter q).seq = q := rfl
@[simp] theorem State.enter_dp (q : Seq) (s : State) : (s.enter q).dp = s.dp := rfl
@[simp] theorem State.enter_frameIdx (q : Seq) (s : State) : (s.enter q).frameIdx = s.frameIdx := rfl
@[simp] theorem State.enter_nFrames (q : Seq) (s : State) : (s.enter q).nFrames = s.nFrames := rfl
@[simp] theorem State.enter_dlSec (q : Seq) (s : State) : (s.enter q).dlSec = s.dlSec := rfl
@[simp] theorem State.enter_dlNsec (q : Seq) (s : State) : (s.enter q).dlNsec = s.dlNsec := rfl
@[simp] theorem State.enter_periodLatched (q : Seq) (s : State) : (s.enter q).periodLatched = s.periodLatched := rfl
@[simp] theorem State.enter_busy (q : Seq) (s : State) : (s.enter q).busy = s.busy := rfl
@[simp] theorem State.enter_tpOpen (q : Seq) (s : State) : (s.enter q).tpOpen = s.tpOpen := rfl
@[simp] theorem State.enter_stopReq (q : Seq) (s : State) : (s.enter q).stopReq = s.stopReq := rfl
@[simp] theorem State.enter_dc (q : Seq) (s : State) : (s.enter q).dc = s.dc := rfl
@[simp] theorem State.enter_rst (q : Seq) (s : State) : (s.enter q).rst = s.rst := rfl
@[simp] theorem State.enter_linesOut (q : Seq) (s : State) : (s.enter q).linesOut = s.linesOut := rfl
@[simp] theorem State.enter_err (q : Seq) (s : State) : (s.enter q).err = s.err := rfl
@[simp] theorem State.enter_errOp (q : Seq) (s : State) : (s.enter q).errOp = s.errOp := rfl
@[simp] theorem State.enter_runOp (q : Seq) (s : State) : (s.enter q).runOp = s.runOp := rfl
@[simp] theorem State.enter_src (q : Seq) (s : State) : (s.enter q).src = s.src := rfl
@[simp] theorem State.enter_fb (q : Seq) (s : State) : (s.enter q).fb = s.fb := rfl
@[simp] theorem State.enter_pal (q : Seq) (s : State) : (s.enter q).pal = s.pal := rfl
@[simp] theorem State.enter_trace (q : Seq) (s : State) : (s.enter q).trace = s.trace := rfl
@[simp] theorem State.enter_todo (q : Seq) (s : State) : (s.enter q).todo = eventsAt s q := rfl
@[simp] theorem State.enter_inFlight (q : Seq) (s : State) : (s.enter q).inFlight = s.inFlight := rfl
@[simp] theorem State.enter_partialWrite (q : Seq) (s : State) : (s.enter q).partialWrite = s.partialWrite := rfl
@[simp] theorem State.enter_held (q : Seq) (s : State) : (s.enter q).held = s.held := rfl
@[simp] theorem State.enter_rdata (q : Seq) (s : State) : (s.enter q).rdata = s.rdata := rfl
@[simp] theorem State.enter_env (q : Seq) (s : State) : (s.enter q).env = s.env := rfl
@[simp] theorem State.enter_script (q : Seq) (s : State) : (s.enter q).script = s.script := rfl

/-! ### toBoundary -/

@[simp] theorem State.toBoundary_cfg (i : Nat) (s : State) : (s.toBoundary i).cfg = s.cfg := rfl
@[simp] theorem State.toBoundary_regs (i : Nat) (s : State) : (s.toBoundary i).regs = s.regs := rfl
@[simp] theorem State.toBoundary_seq (i : Nat) (s : State) : (s.toBoundary i).seq = .playFrame i .col := rfl
@[simp] theorem State.toBoundary_dp (i : Nat) (s : State) : (s.toBoundary i).dp = s.dp := rfl
@[simp] theorem State.toBoundary_frameIdx (i : Nat) (s : State) :
    (s.toBoundary i).frameIdx = BitVec.ofNat 32 i := rfl
@[simp] theorem State.toBoundary_nFrames (i : Nat) (s : State) : (s.toBoundary i).nFrames = s.nFrames := rfl
@[simp] theorem State.toBoundary_dlSec (i : Nat) (s : State) : (s.toBoundary i).dlSec = s.dlSec := rfl
@[simp] theorem State.toBoundary_dlNsec (i : Nat) (s : State) : (s.toBoundary i).dlNsec = s.dlNsec := rfl
@[simp] theorem State.toBoundary_periodLatched (i : Nat) (s : State) :
    (s.toBoundary i).periodLatched = s.periodLatched := rfl
@[simp] theorem State.toBoundary_busy (i : Nat) (s : State) : (s.toBoundary i).busy = s.busy := rfl
@[simp] theorem State.toBoundary_tpOpen (i : Nat) (s : State) : (s.toBoundary i).tpOpen = s.tpOpen := rfl
@[simp] theorem State.toBoundary_stopReq (i : Nat) (s : State) : (s.toBoundary i).stopReq = s.stopReq := rfl
@[simp] theorem State.toBoundary_dc (i : Nat) (s : State) : (s.toBoundary i).dc = s.dc := rfl
@[simp] theorem State.toBoundary_rst (i : Nat) (s : State) : (s.toBoundary i).rst = s.rst := rfl
@[simp] theorem State.toBoundary_linesOut (i : Nat) (s : State) : (s.toBoundary i).linesOut = s.linesOut := rfl
@[simp] theorem State.toBoundary_err (i : Nat) (s : State) : (s.toBoundary i).err = s.err := rfl
@[simp] theorem State.toBoundary_errOp (i : Nat) (s : State) : (s.toBoundary i).errOp = s.errOp := rfl
@[simp] theorem State.toBoundary_runOp (i : Nat) (s : State) : (s.toBoundary i).runOp = s.runOp := rfl
@[simp] theorem State.toBoundary_src (i : Nat) (s : State) : (s.toBoundary i).src = s.src := rfl
@[simp] theorem State.toBoundary_fb (i : Nat) (s : State) : (s.toBoundary i).fb = s.fb := rfl
@[simp] theorem State.toBoundary_pal (i : Nat) (s : State) : (s.toBoundary i).pal = s.pal := rfl
@[simp] theorem State.toBoundary_trace (i : Nat) (s : State) : (s.toBoundary i).trace = s.trace := rfl
@[simp] theorem State.toBoundary_todo (i : Nat) (s : State) : (s.toBoundary i).todo = [] := rfl
@[simp] theorem State.toBoundary_inFlight (i : Nat) (s : State) : (s.toBoundary i).inFlight = s.inFlight := rfl
@[simp] theorem State.toBoundary_partialWrite (i : Nat) (s : State) :
    (s.toBoundary i).partialWrite = s.partialWrite := rfl
@[simp] theorem State.toBoundary_held (i : Nat) (s : State) : (s.toBoundary i).held = s.held := rfl
@[simp] theorem State.toBoundary_rdata (i : Nat) (s : State) : (s.toBoundary i).rdata = s.rdata := rfl
@[simp] theorem State.toBoundary_env (i : Nat) (s : State) : (s.toBoundary i).env = s.env := rfl
@[simp] theorem State.toBoundary_script (i : Nat) (s : State) : (s.toBoundary i).script = s.script := rfl

/-! ### captureNow -/

@[simp] theorem State.captureNow_cfg (s : State) : s.captureNow.cfg = s.cfg := rfl
@[simp] theorem State.captureNow_regs (s : State) : s.captureNow.regs = s.regs := rfl
@[simp] theorem State.captureNow_seq (s : State) : s.captureNow.seq = s.seq := rfl
@[simp] theorem State.captureNow_dp (s : State) : s.captureNow.dp = s.dp := rfl
@[simp] theorem State.captureNow_frameIdx (s : State) : s.captureNow.frameIdx = s.frameIdx := rfl
@[simp] theorem State.captureNow_nFrames (s : State) : s.captureNow.nFrames = s.nFrames := rfl
@[simp] theorem State.captureNow_dlSec (s : State) : s.captureNow.dlSec = s.env.nowSec := rfl
@[simp] theorem State.captureNow_dlNsec (s : State) : s.captureNow.dlNsec = BitVec.ofNat 30 s.env.nowNsec := rfl
@[simp] theorem State.captureNow_periodLatched (s : State) : s.captureNow.periodLatched = s.periodLatched := rfl
@[simp] theorem State.captureNow_busy (s : State) : s.captureNow.busy = s.busy := rfl
@[simp] theorem State.captureNow_tpOpen (s : State) : s.captureNow.tpOpen = s.tpOpen := rfl
@[simp] theorem State.captureNow_stopReq (s : State) : s.captureNow.stopReq = s.stopReq := rfl
@[simp] theorem State.captureNow_dc (s : State) : s.captureNow.dc = s.dc := rfl
@[simp] theorem State.captureNow_rst (s : State) : s.captureNow.rst = s.rst := rfl
@[simp] theorem State.captureNow_linesOut (s : State) : s.captureNow.linesOut = s.linesOut := rfl
@[simp] theorem State.captureNow_err (s : State) : s.captureNow.err = s.err := rfl
@[simp] theorem State.captureNow_errOp (s : State) : s.captureNow.errOp = s.errOp := rfl
@[simp] theorem State.captureNow_runOp (s : State) : s.captureNow.runOp = s.runOp := rfl
@[simp] theorem State.captureNow_src (s : State) : s.captureNow.src = s.src := rfl
@[simp] theorem State.captureNow_fb (s : State) : s.captureNow.fb = s.fb := rfl
@[simp] theorem State.captureNow_pal (s : State) : s.captureNow.pal = s.pal := rfl
@[simp] theorem State.captureNow_trace (s : State) : s.captureNow.trace = s.trace := rfl
@[simp] theorem State.captureNow_todo (s : State) : s.captureNow.todo = s.todo := rfl
@[simp] theorem State.captureNow_inFlight (s : State) : s.captureNow.inFlight = s.inFlight := rfl
@[simp] theorem State.captureNow_partialWrite (s : State) : s.captureNow.partialWrite = s.partialWrite := rfl
@[simp] theorem State.captureNow_held (s : State) : s.captureNow.held = s.held := rfl
@[simp] theorem State.captureNow_rdata (s : State) : s.captureNow.rdata = s.rdata := rfl
@[simp] theorem State.captureNow_env (s : State) : s.captureNow.env = s.env := rfl
@[simp] theorem State.captureNow_script (s : State) : s.captureNow.script = s.script := rfl

/-! ### moveDeadline -/

@[simp] theorem State.moveDeadline_cfg (s : State) : s.moveDeadline.cfg = s.cfg := rfl
@[simp] theorem State.moveDeadline_regs (s : State) : s.moveDeadline.regs = s.regs := rfl
@[simp] theorem State.moveDeadline_seq (s : State) : s.moveDeadline.seq = s.seq := rfl
@[simp] theorem State.moveDeadline_dp (s : State) : s.moveDeadline.dp = s.dp := rfl
@[simp] theorem State.moveDeadline_frameIdx (s : State) : s.moveDeadline.frameIdx = s.frameIdx := rfl
@[simp] theorem State.moveDeadline_nFrames (s : State) : s.moveDeadline.nFrames = s.nFrames := rfl
@[simp] theorem State.moveDeadline_dlSec (s : State) :
    s.moveDeadline.dlSec = (advanceDeadline s.dlSec s.dlNsec.toNat s.periodLatched.toNat).1 := rfl
@[simp] theorem State.moveDeadline_dlNsec (s : State) :
    s.moveDeadline.dlNsec = BitVec.ofNat 30 (advanceDeadline s.dlSec s.dlNsec.toNat s.periodLatched.toNat).2 := rfl
@[simp] theorem State.moveDeadline_periodLatched (s : State) : s.moveDeadline.periodLatched = s.periodLatched := rfl
@[simp] theorem State.moveDeadline_busy (s : State) : s.moveDeadline.busy = s.busy := rfl
@[simp] theorem State.moveDeadline_tpOpen (s : State) : s.moveDeadline.tpOpen = s.tpOpen := rfl
@[simp] theorem State.moveDeadline_stopReq (s : State) : s.moveDeadline.stopReq = s.stopReq := rfl
@[simp] theorem State.moveDeadline_dc (s : State) : s.moveDeadline.dc = s.dc := rfl
@[simp] theorem State.moveDeadline_rst (s : State) : s.moveDeadline.rst = s.rst := rfl
@[simp] theorem State.moveDeadline_linesOut (s : State) : s.moveDeadline.linesOut = s.linesOut := rfl
@[simp] theorem State.moveDeadline_err (s : State) : s.moveDeadline.err = s.err := rfl
@[simp] theorem State.moveDeadline_errOp (s : State) : s.moveDeadline.errOp = s.errOp := rfl
@[simp] theorem State.moveDeadline_runOp (s : State) : s.moveDeadline.runOp = s.runOp := rfl
@[simp] theorem State.moveDeadline_src (s : State) : s.moveDeadline.src = s.src := rfl
@[simp] theorem State.moveDeadline_fb (s : State) : s.moveDeadline.fb = s.fb := rfl
@[simp] theorem State.moveDeadline_pal (s : State) : s.moveDeadline.pal = s.pal := rfl
@[simp] theorem State.moveDeadline_trace (s : State) : s.moveDeadline.trace = s.trace := rfl
@[simp] theorem State.moveDeadline_todo (s : State) : s.moveDeadline.todo = s.todo := rfl
@[simp] theorem State.moveDeadline_inFlight (s : State) : s.moveDeadline.inFlight = s.inFlight := rfl
@[simp] theorem State.moveDeadline_partialWrite (s : State) : s.moveDeadline.partialWrite = s.partialWrite := rfl
@[simp] theorem State.moveDeadline_held (s : State) : s.moveDeadline.held = s.held := rfl
@[simp] theorem State.moveDeadline_rdata (s : State) : s.moveDeadline.rdata = s.rdata := rfl
@[simp] theorem State.moveDeadline_env (s : State) : s.moveDeadline.env = s.env := rfl
@[simp] theorem State.moveDeadline_script (s : State) : s.moveDeadline.script = s.script := rfl

/-! ### assertReset -/

@[simp] theorem State.assertReset_cfg (s : State) : s.assertReset.cfg = s.cfg := rfl
@[simp] theorem State.assertReset_regs (s : State) : s.assertReset.regs = State.reset.regs := rfl
@[simp] theorem State.assertReset_seq (s : State) : s.assertReset.seq = State.reset.seq := rfl
@[simp] theorem State.assertReset_dp (s : State) : s.assertReset.dp = State.reset.dp := rfl
@[simp] theorem State.assertReset_frameIdx (s : State) : s.assertReset.frameIdx = State.reset.frameIdx := rfl
@[simp] theorem State.assertReset_nFrames (s : State) : s.assertReset.nFrames = State.reset.nFrames := rfl
@[simp] theorem State.assertReset_dlSec (s : State) : s.assertReset.dlSec = State.reset.dlSec := rfl
@[simp] theorem State.assertReset_dlNsec (s : State) : s.assertReset.dlNsec = State.reset.dlNsec := rfl
@[simp] theorem State.assertReset_periodLatched (s : State) :
    s.assertReset.periodLatched = State.reset.periodLatched := rfl
@[simp] theorem State.assertReset_busy (s : State) : s.assertReset.busy = State.reset.busy := rfl
@[simp] theorem State.assertReset_tpOpen (s : State) : s.assertReset.tpOpen = State.reset.tpOpen := rfl
@[simp] theorem State.assertReset_stopReq (s : State) : s.assertReset.stopReq = State.reset.stopReq := rfl
@[simp] theorem State.assertReset_dc (s : State) : s.assertReset.dc = State.reset.dc := rfl
@[simp] theorem State.assertReset_rst (s : State) : s.assertReset.rst = State.reset.rst := rfl
@[simp] theorem State.assertReset_linesOut (s : State) : s.assertReset.linesOut = State.reset.linesOut := rfl
@[simp] theorem State.assertReset_err (s : State) : s.assertReset.err = State.reset.err := rfl
@[simp] theorem State.assertReset_errOp (s : State) : s.assertReset.errOp = State.reset.errOp := rfl
@[simp] theorem State.assertReset_runOp (s : State) : s.assertReset.runOp = State.reset.runOp := rfl
@[simp] theorem State.assertReset_src (s : State) : s.assertReset.src = State.reset.src := rfl
@[simp] theorem State.assertReset_fb (s : State) : s.assertReset.fb = State.reset.fb := rfl
@[simp] theorem State.assertReset_pal (s : State) : s.assertReset.pal = State.reset.pal := rfl
@[simp] theorem State.assertReset_trace (s : State) : s.assertReset.trace = State.reset.trace := rfl
@[simp] theorem State.assertReset_todo (s : State) : s.assertReset.todo = State.reset.todo := rfl
@[simp] theorem State.assertReset_inFlight (s : State) : s.assertReset.inFlight = State.reset.inFlight := rfl
@[simp] theorem State.assertReset_partialWrite (s : State) :
    s.assertReset.partialWrite = State.reset.partialWrite := rfl
@[simp] theorem State.assertReset_held (s : State) : s.assertReset.held = State.reset.held := rfl
@[simp] theorem State.assertReset_rdata (s : State) : s.assertReset.rdata = State.reset.rdata := rfl
@[simp] theorem State.assertReset_env (s : State) : s.assertReset.env = s.env := rfl
@[simp] theorem State.assertReset_script (s : State) : s.assertReset.script = s.script := rfl

/-! ### setScript -/

@[simp] theorem State.setScript_cfg (turns : List Turn) (s : State) : (s.setScript turns).cfg = s.cfg := rfl
@[simp] theorem State.setScript_regs (turns : List Turn) (s : State) : (s.setScript turns).regs = s.regs := rfl
@[simp] theorem State.setScript_seq (turns : List Turn) (s : State) : (s.setScript turns).seq = s.seq := rfl
@[simp] theorem State.setScript_dp (turns : List Turn) (s : State) : (s.setScript turns).dp = s.dp := rfl
@[simp] theorem State.setScript_frameIdx (turns : List Turn) (s : State) : (s.setScript turns).frameIdx = s.frameIdx := rfl
@[simp] theorem State.setScript_nFrames (turns : List Turn) (s : State) : (s.setScript turns).nFrames = s.nFrames := rfl
@[simp] theorem State.setScript_dlSec (turns : List Turn) (s : State) : (s.setScript turns).dlSec = s.dlSec := rfl
@[simp] theorem State.setScript_dlNsec (turns : List Turn) (s : State) : (s.setScript turns).dlNsec = s.dlNsec := rfl
@[simp] theorem State.setScript_periodLatched (turns : List Turn) (s : State) : (s.setScript turns).periodLatched = s.periodLatched := rfl
@[simp] theorem State.setScript_busy (turns : List Turn) (s : State) : (s.setScript turns).busy = s.busy := rfl
@[simp] theorem State.setScript_tpOpen (turns : List Turn) (s : State) : (s.setScript turns).tpOpen = s.tpOpen := rfl
@[simp] theorem State.setScript_stopReq (turns : List Turn) (s : State) : (s.setScript turns).stopReq = s.stopReq := rfl
@[simp] theorem State.setScript_dc (turns : List Turn) (s : State) : (s.setScript turns).dc = s.dc := rfl
@[simp] theorem State.setScript_rst (turns : List Turn) (s : State) : (s.setScript turns).rst = s.rst := rfl
@[simp] theorem State.setScript_linesOut (turns : List Turn) (s : State) : (s.setScript turns).linesOut = s.linesOut := rfl
@[simp] theorem State.setScript_err (turns : List Turn) (s : State) : (s.setScript turns).err = s.err := rfl
@[simp] theorem State.setScript_errOp (turns : List Turn) (s : State) : (s.setScript turns).errOp = s.errOp := rfl
@[simp] theorem State.setScript_runOp (turns : List Turn) (s : State) : (s.setScript turns).runOp = s.runOp := rfl
@[simp] theorem State.setScript_src (turns : List Turn) (s : State) : (s.setScript turns).src = s.src := rfl
@[simp] theorem State.setScript_fb (turns : List Turn) (s : State) : (s.setScript turns).fb = s.fb := rfl
@[simp] theorem State.setScript_pal (turns : List Turn) (s : State) : (s.setScript turns).pal = s.pal := rfl
@[simp] theorem State.setScript_trace (turns : List Turn) (s : State) : (s.setScript turns).trace = s.trace := rfl
@[simp] theorem State.setScript_todo (turns : List Turn) (s : State) : (s.setScript turns).todo = s.todo := rfl
@[simp] theorem State.setScript_inFlight (turns : List Turn) (s : State) : (s.setScript turns).inFlight = s.inFlight := rfl
@[simp] theorem State.setScript_partialWrite (turns : List Turn) (s : State) : (s.setScript turns).partialWrite = s.partialWrite := rfl
@[simp] theorem State.setScript_held (turns : List Turn) (s : State) : (s.setScript turns).held = s.held := rfl
@[simp] theorem State.setScript_rdata (turns : List Turn) (s : State) : (s.setScript turns).rdata = s.rdata := rfl
@[simp] theorem State.setScript_env (turns : List Turn) (s : State) : (s.setScript turns).env = s.env := rfl
@[simp] theorem State.setScript_script (turns : List Turn) (s : State) : (s.setScript turns).script = turns := rfl

/-! ### setTodo -/

@[simp] theorem State.setTodo_cfg (calls : List Event) (s : State) : (s.setTodo calls).cfg = s.cfg := rfl
@[simp] theorem State.setTodo_regs (calls : List Event) (s : State) : (s.setTodo calls).regs = s.regs := rfl
@[simp] theorem State.setTodo_seq (calls : List Event) (s : State) : (s.setTodo calls).seq = s.seq := rfl
@[simp] theorem State.setTodo_dp (calls : List Event) (s : State) : (s.setTodo calls).dp = s.dp := rfl
@[simp] theorem State.setTodo_frameIdx (calls : List Event) (s : State) : (s.setTodo calls).frameIdx = s.frameIdx := rfl
@[simp] theorem State.setTodo_nFrames (calls : List Event) (s : State) : (s.setTodo calls).nFrames = s.nFrames := rfl
@[simp] theorem State.setTodo_dlSec (calls : List Event) (s : State) : (s.setTodo calls).dlSec = s.dlSec := rfl
@[simp] theorem State.setTodo_dlNsec (calls : List Event) (s : State) : (s.setTodo calls).dlNsec = s.dlNsec := rfl
@[simp] theorem State.setTodo_periodLatched (calls : List Event) (s : State) : (s.setTodo calls).periodLatched = s.periodLatched := rfl
@[simp] theorem State.setTodo_busy (calls : List Event) (s : State) : (s.setTodo calls).busy = s.busy := rfl
@[simp] theorem State.setTodo_tpOpen (calls : List Event) (s : State) : (s.setTodo calls).tpOpen = s.tpOpen := rfl
@[simp] theorem State.setTodo_stopReq (calls : List Event) (s : State) : (s.setTodo calls).stopReq = s.stopReq := rfl
@[simp] theorem State.setTodo_dc (calls : List Event) (s : State) : (s.setTodo calls).dc = s.dc := rfl
@[simp] theorem State.setTodo_rst (calls : List Event) (s : State) : (s.setTodo calls).rst = s.rst := rfl
@[simp] theorem State.setTodo_linesOut (calls : List Event) (s : State) : (s.setTodo calls).linesOut = s.linesOut := rfl
@[simp] theorem State.setTodo_err (calls : List Event) (s : State) : (s.setTodo calls).err = s.err := rfl
@[simp] theorem State.setTodo_errOp (calls : List Event) (s : State) : (s.setTodo calls).errOp = s.errOp := rfl
@[simp] theorem State.setTodo_runOp (calls : List Event) (s : State) : (s.setTodo calls).runOp = s.runOp := rfl
@[simp] theorem State.setTodo_src (calls : List Event) (s : State) : (s.setTodo calls).src = s.src := rfl
@[simp] theorem State.setTodo_fb (calls : List Event) (s : State) : (s.setTodo calls).fb = s.fb := rfl
@[simp] theorem State.setTodo_pal (calls : List Event) (s : State) : (s.setTodo calls).pal = s.pal := rfl
@[simp] theorem State.setTodo_trace (calls : List Event) (s : State) : (s.setTodo calls).trace = s.trace := rfl
@[simp] theorem State.setTodo_todo (calls : List Event) (s : State) : (s.setTodo calls).todo = calls := rfl
@[simp] theorem State.setTodo_inFlight (calls : List Event) (s : State) : (s.setTodo calls).inFlight = s.inFlight := rfl
@[simp] theorem State.setTodo_partialWrite (calls : List Event) (s : State) : (s.setTodo calls).partialWrite = s.partialWrite := rfl
@[simp] theorem State.setTodo_held (calls : List Event) (s : State) : (s.setTodo calls).held = s.held := rfl
@[simp] theorem State.setTodo_rdata (calls : List Event) (s : State) : (s.setTodo calls).rdata = s.rdata := rfl
@[simp] theorem State.setTodo_env (calls : List Event) (s : State) : (s.setTodo calls).env = s.env := rfl
@[simp] theorem State.setTodo_script (calls : List Event) (s : State) : (s.setTodo calls).script = s.script := rfl

/-! ### setEnv -/

@[simp] theorem State.setEnv_cfg (e : Env) (s : State) : (s.setEnv e).cfg = s.cfg := rfl
@[simp] theorem State.setEnv_regs (e : Env) (s : State) : (s.setEnv e).regs = s.regs := rfl
@[simp] theorem State.setEnv_seq (e : Env) (s : State) : (s.setEnv e).seq = s.seq := rfl
@[simp] theorem State.setEnv_dp (e : Env) (s : State) : (s.setEnv e).dp = s.dp := rfl
@[simp] theorem State.setEnv_frameIdx (e : Env) (s : State) : (s.setEnv e).frameIdx = s.frameIdx := rfl
@[simp] theorem State.setEnv_nFrames (e : Env) (s : State) : (s.setEnv e).nFrames = s.nFrames := rfl
@[simp] theorem State.setEnv_dlSec (e : Env) (s : State) : (s.setEnv e).dlSec = s.dlSec := rfl
@[simp] theorem State.setEnv_dlNsec (e : Env) (s : State) : (s.setEnv e).dlNsec = s.dlNsec := rfl
@[simp] theorem State.setEnv_periodLatched (e : Env) (s : State) :
    (s.setEnv e).periodLatched = s.periodLatched := rfl
@[simp] theorem State.setEnv_busy (e : Env) (s : State) : (s.setEnv e).busy = s.busy := rfl
@[simp] theorem State.setEnv_tpOpen (e : Env) (s : State) : (s.setEnv e).tpOpen = s.tpOpen := rfl
@[simp] theorem State.setEnv_stopReq (e : Env) (s : State) : (s.setEnv e).stopReq = s.stopReq := rfl
@[simp] theorem State.setEnv_dc (e : Env) (s : State) : (s.setEnv e).dc = s.dc := rfl
@[simp] theorem State.setEnv_rst (e : Env) (s : State) : (s.setEnv e).rst = s.rst := rfl
@[simp] theorem State.setEnv_linesOut (e : Env) (s : State) : (s.setEnv e).linesOut = s.linesOut := rfl
@[simp] theorem State.setEnv_err (e : Env) (s : State) : (s.setEnv e).err = s.err := rfl
@[simp] theorem State.setEnv_errOp (e : Env) (s : State) : (s.setEnv e).errOp = s.errOp := rfl
@[simp] theorem State.setEnv_runOp (e : Env) (s : State) : (s.setEnv e).runOp = s.runOp := rfl
@[simp] theorem State.setEnv_src (e : Env) (s : State) : (s.setEnv e).src = s.src := rfl
@[simp] theorem State.setEnv_fb (e : Env) (s : State) : (s.setEnv e).fb = s.fb := rfl
@[simp] theorem State.setEnv_pal (e : Env) (s : State) : (s.setEnv e).pal = s.pal := rfl
@[simp] theorem State.setEnv_trace (e : Env) (s : State) : (s.setEnv e).trace = s.trace := rfl
@[simp] theorem State.setEnv_todo (e : Env) (s : State) : (s.setEnv e).todo = s.todo := rfl
@[simp] theorem State.setEnv_inFlight (e : Env) (s : State) : (s.setEnv e).inFlight = s.inFlight := rfl
@[simp] theorem State.setEnv_partialWrite (e : Env) (s : State) : (s.setEnv e).partialWrite = s.partialWrite := rfl
@[simp] theorem State.setEnv_held (e : Env) (s : State) : (s.setEnv e).held = s.held := rfl
@[simp] theorem State.setEnv_rdata (e : Env) (s : State) : (s.setEnv e).rdata = s.rdata := rfl
@[simp] theorem State.setEnv_env (e : Env) (s : State) : (s.setEnv e).env = e := rfl
@[simp] theorem State.setEnv_script (e : Env) (s : State) : (s.setEnv e).script = s.script := rfl

/-! ### land -/

@[simp] theorem State.land_cfg (s : State) : (s.land).cfg = s.cfg := rfl
@[simp] theorem State.land_regs (s : State) : (s.land).regs = s.regs := rfl
@[simp] theorem State.land_seq (s : State) : (s.land).seq = s.seq := rfl
@[simp] theorem State.land_dp (s : State) : (s.land).dp = s.dp := rfl
@[simp] theorem State.land_frameIdx (s : State) : (s.land).frameIdx = s.frameIdx := rfl
@[simp] theorem State.land_nFrames (s : State) : (s.land).nFrames = s.nFrames := rfl
@[simp] theorem State.land_dlSec (s : State) : (s.land).dlSec = s.dlSec := rfl
@[simp] theorem State.land_dlNsec (s : State) : (s.land).dlNsec = s.dlNsec := rfl
@[simp] theorem State.land_periodLatched (s : State) : (s.land).periodLatched = s.periodLatched := rfl
@[simp] theorem State.land_busy (s : State) : (s.land).busy = s.busy := rfl
@[simp] theorem State.land_tpOpen (s : State) : (s.land).tpOpen = s.tpOpen := rfl
@[simp] theorem State.land_stopReq (s : State) : (s.land).stopReq = s.stopReq := rfl
@[simp] theorem State.land_dc (s : State) : (s.land).dc = s.dc := rfl
@[simp] theorem State.land_rst (s : State) : (s.land).rst = s.rst := rfl
@[simp] theorem State.land_linesOut (s : State) : (s.land).linesOut = s.linesOut := rfl
@[simp] theorem State.land_err (s : State) : (s.land).err = s.err := rfl
@[simp] theorem State.land_errOp (s : State) : (s.land).errOp = s.errOp := rfl
@[simp] theorem State.land_runOp (s : State) : (s.land).runOp = s.runOp := rfl
@[simp] theorem State.land_src (s : State) : (s.land).src = s.src := rfl
@[simp] theorem State.land_fb (s : State) : (s.land).fb = s.fb := rfl
@[simp] theorem State.land_pal (s : State) : (s.land).pal = s.pal := rfl
@[simp] theorem State.land_trace (s : State) : (s.land).trace = s.trace := rfl
@[simp] theorem State.land_todo (s : State) : (s.land).todo = s.todo := rfl
@[simp] theorem State.land_inFlight (s : State) : (s.land).inFlight = none := rfl
@[simp] theorem State.land_partialWrite (s : State) : (s.land).partialWrite = s.partialWrite := rfl
@[simp] theorem State.land_held (s : State) : (s.land).held = s.held := rfl
@[simp] theorem State.land_rdata (s : State) : (s.land).rdata = s.rdata := rfl
@[simp] theorem State.land_env (s : State) : (s.land).env = s.env := rfl
@[simp] theorem State.land_script (s : State) : (s.land).script = s.script := rfl

/-! ### noteFailure -/

@[simp] theorem State.noteFailure_cfg (p : Event) (sent : Nat) (s : State) :
    (s.noteFailure p sent).cfg = s.cfg := rfl
@[simp] theorem State.noteFailure_regs (p : Event) (sent : Nat) (s : State) :
    (s.noteFailure p sent).regs = s.regs := rfl
@[simp] theorem State.noteFailure_seq (p : Event) (sent : Nat) (s : State) :
    (s.noteFailure p sent).seq = s.seq := rfl
@[simp] theorem State.noteFailure_dp (p : Event) (sent : Nat) (s : State) : (s.noteFailure p sent).dp = s.dp := rfl
@[simp] theorem State.noteFailure_frameIdx (p : Event) (sent : Nat) (s : State) :
    (s.noteFailure p sent).frameIdx = s.frameIdx := rfl
@[simp] theorem State.noteFailure_nFrames (p : Event) (sent : Nat) (s : State) :
    (s.noteFailure p sent).nFrames = s.nFrames := rfl
@[simp] theorem State.noteFailure_dlSec (p : Event) (sent : Nat) (s : State) :
    (s.noteFailure p sent).dlSec = s.dlSec := rfl
@[simp] theorem State.noteFailure_dlNsec (p : Event) (sent : Nat) (s : State) :
    (s.noteFailure p sent).dlNsec = s.dlNsec := rfl
@[simp] theorem State.noteFailure_periodLatched (p : Event) (sent : Nat) (s : State) :
    (s.noteFailure p sent).periodLatched = s.periodLatched := rfl
@[simp] theorem State.noteFailure_busy (p : Event) (sent : Nat) (s : State) :
    (s.noteFailure p sent).busy = s.busy := rfl
@[simp] theorem State.noteFailure_tpOpen (p : Event) (sent : Nat) (s : State) :
    (s.noteFailure p sent).tpOpen = s.tpOpen := rfl
@[simp] theorem State.noteFailure_stopReq (p : Event) (sent : Nat) (s : State) :
    (s.noteFailure p sent).stopReq = s.stopReq := rfl
@[simp] theorem State.noteFailure_dc (p : Event) (sent : Nat) (s : State) : (s.noteFailure p sent).dc = s.dc := rfl
@[simp] theorem State.noteFailure_rst (p : Event) (sent : Nat) (s : State) :
    (s.noteFailure p sent).rst = s.rst := rfl
@[simp] theorem State.noteFailure_linesOut (p : Event) (sent : Nat) (s : State) :
    (s.noteFailure p sent).linesOut = s.linesOut := rfl
@[simp] theorem State.noteFailure_err (p : Event) (sent : Nat) (s : State) :
    (s.noteFailure p sent).err = s.err := rfl
@[simp] theorem State.noteFailure_errOp (p : Event) (sent : Nat) (s : State) :
    (s.noteFailure p sent).errOp = s.errOp := rfl
@[simp] theorem State.noteFailure_runOp (p : Event) (sent : Nat) (s : State) :
    (s.noteFailure p sent).runOp = s.runOp := rfl
@[simp] theorem State.noteFailure_src (p : Event) (sent : Nat) (s : State) :
    (s.noteFailure p sent).src = s.src := rfl
@[simp] theorem State.noteFailure_fb (p : Event) (sent : Nat) (s : State) : (s.noteFailure p sent).fb = s.fb := rfl
@[simp] theorem State.noteFailure_pal (p : Event) (sent : Nat) (s : State) :
    (s.noteFailure p sent).pal = s.pal := rfl
@[simp] theorem State.noteFailure_trace (p : Event) (sent : Nat) (s : State) :
    (s.noteFailure p sent).trace = s.trace := rfl
@[simp] theorem State.noteFailure_todo (p : Event) (sent : Nat) (s : State) :
    (s.noteFailure p sent).todo = s.todo := rfl
@[simp] theorem State.noteFailure_inFlight (p : Event) (sent : Nat) (s : State) :
    (s.noteFailure p sent).inFlight = s.inFlight := rfl
@[simp] theorem State.noteFailure_partialWrite (p : Event) (sent : Nat) (s : State) :
    (s.noteFailure p sent).partialWrite = leftBytes p sent s.partialWrite := rfl
@[simp] theorem State.noteFailure_held (p : Event) (sent : Nat) (s : State) :
    (s.noteFailure p sent).held = s.held := rfl
@[simp] theorem State.noteFailure_rdata (p : Event) (sent : Nat) (s : State) :
    (s.noteFailure p sent).rdata = s.rdata := rfl
@[simp] theorem State.noteFailure_env (p : Event) (sent : Nat) (s : State) :
    (s.noteFailure p sent).env = s.env := rfl
@[simp] theorem State.noteFailure_script (p : Event) (sent : Nat) (s : State) :
    (s.noteFailure p sent).script = s.script := rfl

end Sys2Proof.Machine
end

