-- ==== Sys2Proof/Laws/Ops.lean ====
section
/-! SUPPORT. What the shared operations can do, said once: error entry, teardown, admission of a request, and the
meaning of every operation as an admission. -/

namespace Sys2Proof.Machine

/-! ### Teardown and error entry -/

/-- The teardown with the transport closed calls nothing: the operation ends (44_streamer.md R225). -/
theorem teardown_closed {s : State} (h : s.tpOpen = false) : s.teardown = s.complete := by
  simp [State.teardown, State.complete, h]

/-- The teardown with the transport open has the one call to make (44_streamer.md R225). -/
theorem teardown_open {s : State} (h : s.tpOpen = true) :
    s.teardown = { s with busy := true, seq := .teardown, todo := [.closeCh], inFlight := none } := by
  simp [State.teardown, h]

/-- The first error: `raise` leaves `errorState` (60_exceptions.md R245). -/
theorem raise_eq {s : State} (e : ErrClass) (h : s.err = 0) : s.raise e = errorState e s.runOp s := by
  simp [State.raise, State.teardown, errorState, h]

/-- An error in the step of acceptance carries the request's code (10_state.md R32). -/
theorem raise_accept {s : State} (e : ErrClass) (code : Byte) (h : s.err = 0) :
    (s.accept code).raise e = errorState e code s := by
  rw [raise_eq e (by simpa using h)]
  rfl

/-- The codes the block writes (60_exceptions.md R241). -/
theorem code_ne_zero (e : ErrClass) : e.code ≠ 0 := by cases e <;> decide

/-! ### Admission -/

theorem request_idle {s : State} {code : Byte} {start : State → State} (he : s.err = 0) (hb : s.busy = false) :
    s.request code start = start (s.accept code) := by
  simp [State.request, he, hb]

theorem request_busy {s : State} {code : Byte} {start : State → State} (he : s.err = 0) (hb : s.busy = true) :
    s.request code start = s.hold code := by
  simp [State.request, he, hb]

theorem request_halted {s : State} {code : Byte} {start : State → State} (he : s.err ≠ 0) :
    s.request code start = s := by
  unfold State.request
  rw [if_pos he]

/-- Everything an admission can do: nothing while halted, hold while busy, start. -/
theorem request_cases (s : State) (code : Byte) (start : State → State) :
    (s.err ≠ 0 ∧ s.request code start = s) ∨
      (s.err = 0 ∧ s.busy = true ∧ s.request code start = s.hold code) ∨
      (s.err = 0 ∧ s.busy = false ∧ s.request code start = start (s.accept code)) := by
  by_cases he : s.err = 0
  · cases hb : s.busy with
    | true => exact .inr (.inl ⟨he, rfl, request_busy he hb⟩)
    | false => exact .inr (.inr ⟨he, rfl, request_idle he hb⟩)
  · exact .inl ⟨he, request_halted he⟩

/-! ### The meanings as admissions -/

/-- The panel command an operation emits, with its operands taken from the latches and memories; for writeMemory
`none` where the payload leaves FB. -/
def groupsRequested (s : State) : Instr → Option (Option (List Group))
  | .reset => some (encode s.cfg .reset)
  | .sleepIn => some (encode s.cfg .sleepIn)
  | .sleepOut => some (encode s.cfg .sleepOut)
  | .invertOff => some (encode s.cfg .invertOff)
  | .invertOn => some (encode s.cfg .invertOn)
  | .setGamma => some (encode s.cfg (.setGamma s.regs.argCurve))
  | .displayOff => some (encode s.cfg .displayOff)
  | .displayOn => some (encode s.cfg .displayOn)
  | .setColumnRange => some (encode s.cfg (.setColumnRange s.regs.argBegin s.regs.argEnd))
  | .setRowRange => some (encode s.cfg (.setRowRange s.regs.argBegin s.regs.argEnd))
  | .writeMemory => some (if s.payloadFits then encode s.cfg (.writeMemory s.payload) else none)
  | .setPalette => some (encode s.cfg s.paletteCommand)
  | .tearingEffectOff => some (encode s.cfg .tearingEffectOff)
  | .tearingEffectOn => some (encode s.cfg .tearingEffectOn)
  | .setAddressMode => some (encode s.cfg (.setAddressMode (latchFlags s.regs.argFlags)))
  | .setColorMode => some (encode s.cfg (.setColorMode s.regs.argBpp))
  | .openInit => none
  | .resample => none
  | .play => none
  | .stop => none
  | .close => none

/-- What starts when the operation is accepted (every operation but STOP). -/
def startOf (s : State) (i : Instr) : State → State :=
  match groupsRequested s i with
  | some gs => State.startCommand gs
  | none =>
    match i with
    | .openInit => State.startOpenInit
    | .resample => State.startResample
    | .play => State.startPlay
    | .close => State.teardown
    | _ => id

/-- Every operation but STOP is an admission. -/
theorem exec_request {i : Instr} (h : i ≠ .stop) (s : State) :
    exec i s = .next (s.request (encodeOp i) (startOf s i)) := by
  cases i <;> first | exact absurd rfl h | rfl

theorem exec_stop (s : State) :
    exec .stop s = .next (if s.err = 0 ∧ s.seq.isPlay then { s with stopReq := true } else s) := rfl

/-- An accepted operation starts. -/
theorem exec_ready {i : Instr} {s : State} (h : i ≠ .stop) (he : s.err = 0) (hb : s.busy = false) :
    exec i s = .next (startOf s i (s.accept (encodeOp i))) := by
  rw [exec_request h, request_idle he hb]

/-- What a panel command sends is an encoded command, or nothing. -/
theorem groupsRequested_cases {s : State} {i : Instr} {gs : Option (List Group)}
    (h : groupsRequested s i = some gs) : gs = none ∨ ∃ k, gs = encode s.cfg k := by
  cases i
  case writeMemory =>
    simp only [groupsRequested, Option.some.injEq] at h
    split at h
    · exact .inr ⟨_, h.symm⟩
    · exact .inl h.symm
  all_goals first
    | exact .inr ⟨_, (Option.some.inj h).symm⟩
    | cases h

/-- Everything a request can do (10_state.md R21, R32; 30_encoding.md R111; 44_streamer.md R222). The code is what
the host wrote. -/
theorem issue_cases (code : Byte) (s : State) : ∃ t, s.issue code = .next t ∧
    (t = s ∨ (s.err = 0 ∧ s.busy = true ∧ t = s.hold code) ∨
      (s.err = 0 ∧ s.seq.isPlay = true ∧ t = { s with stopReq := true }) ∨
      (s.err = 0 ∧ s.busy = false ∧
        (t = (s.accept code).raise .usage ∨
          (∃ gs, (gs = none ∨ ∃ k, gs = encode s.cfg k) ∧ t = State.startCommand gs (s.accept code)) ∨
          t = (s.accept code).startOpenInit ∨ t = (s.accept code).startPlay ∨ t = (s.accept code).startResample ∨
          t = (s.accept code).teardown))) := by
  unfold State.issue
  cases hd : decodeOp code with
  | rejected why =>
    refine ⟨_, rfl, ?_⟩
    rcases request_cases s code (fun t => t.raise .usage) with ⟨_, h⟩ | ⟨he, hb, h⟩ | ⟨he, hb, h⟩
    · exact .inl h
    · exact .inr (.inl ⟨he, hb, h⟩)
    · exact .inr (.inr (.inr ⟨he, hb, .inl h⟩))
  | instr i =>
    have hcode : code = encodeOp i := by
      unfold decodeOp at hd
      split at hd <;>
        first
          | (injection hd with hd; subst hd; apply BitVec.eq_of_toNat_eq; assumption)
          | cases hd
    subst hcode
    by_cases hi : i = .stop
    · subst hi
      refine ⟨_, exec_stop s, ?_⟩
      split
      · rename_i h; exact .inr (.inr (.inl ⟨h.1, h.2, rfl⟩))
      · exact .inl rfl
    · refine ⟨_, exec_request hi s, ?_⟩
      rcases request_cases s (encodeOp i) (startOf s i) with ⟨_, h⟩ | ⟨he, hb, h⟩ | ⟨he, hb, h⟩
      · exact .inl h
      · exact .inr (.inl ⟨he, hb, h⟩)
      · refine .inr (.inr (.inr ⟨he, hb, .inr ?_⟩))
        rw [h]
        cases hg : groupsRequested s i with
        | some gs => exact .inl ⟨gs, groupsRequested_cases hg, by simp only [startOf, hg]⟩
        | none =>
          cases i
          case openInit => exact .inr (.inl rfl)
          case resample => exact .inr (.inr (.inr (.inl rfl)))
          case play => exact .inr (.inr (.inl rfl))
          case close => exact .inr (.inr (.inr (.inr rfl)))
          case stop => exact absurd rfl hi
          all_goals cases hg

end Sys2Proof.Machine
end

