-- ==== Sys2Proof/Laws/Memory.lean ====
section
/-! SUPPORT. The laws of memory: read after write, canonical form, bounds (20_memory.md R60 to R75). -/

namespace Sys2Proof.Machine

theorem Memory.lookup_store_self (m : Memory) (a : Nat) (v : Byte) : (m.store a v).lookup a = some v := by
  induction m with
  | nil => simp [Memory.store, Memory.lookup]
  | cons e m ih =>
    obtain ⟨k, w⟩ := e
    unfold Memory.store
    split_ifs with h1 h2
    · simp [Memory.lookup]
    · simp [Memory.lookup]
    · simp [Memory.lookup, h2, ih]

theorem Memory.lookup_store_other (m : Memory) (a b : Nat) (v : Byte) (h : b ≠ a) :
    (m.store a v).lookup b = m.lookup b := by
  induction m with
  | nil => simp [Memory.store, Memory.lookup, h]
  | cons e m ih =>
    obtain ⟨k, w⟩ := e
    unfold Memory.store
    split_ifs with h1 h2
    · simp [Memory.lookup, h]
    · subst h2; simp [Memory.lookup, h]
    · simp [Memory.lookup, ih]

/-- The first address of a memory lies above `a`, if there is one. -/
def Memory.above (a : Nat) : Memory → Prop
  | [] => True
  | (k, _) :: _ => a < k

theorem Memory.wf_cons (a : Nat) (v : Byte) (m : Memory) :
    Memory.wf ((a, v) :: m) = true ↔ m.above a ∧ m.wf = true := by
  cases m with
  | nil => simp [Memory.wf, Memory.above]
  | cons e m => obtain ⟨k, w⟩ := e; simp [Memory.wf, Memory.above]

theorem Memory.above_store (m : Memory) (k a : Nat) (v : Byte) (hm : m.above k) (h : k < a) :
    (m.store a v).above k := by
  cases m with
  | nil => simpa [Memory.store, Memory.above] using h
  | cons e m =>
    obtain ⟨j, w⟩ := e
    unfold Memory.store
    split_ifs <;> simp_all [Memory.above]

/-- Storing keeps the canonical form. -/
theorem Memory.wf_store (m : Memory) (a : Nat) (v : Byte) (h : m.wf = true) : (m.store a v).wf = true := by
  induction m with
  | nil => rfl
  | cons e m ih =>
    obtain ⟨k, w⟩ := e
    obtain ⟨hk, hm⟩ := (Memory.wf_cons k w m).1 h
    unfold Memory.store
    split_ifs with h1 h2
    · exact (Memory.wf_cons _ _ _).2 ⟨h1, h⟩
    · subst h2; exact (Memory.wf_cons _ _ _).2 ⟨hk, hm⟩
    · exact (Memory.wf_cons _ _ _).2 ⟨Memory.above_store m k a v hk (by omega), ih hm⟩

theorem Memory.within_cons (k cap : Nat) (w : Byte) (m : Memory) :
    Memory.within ((k, w) :: m) cap = true ↔ k < cap ∧ m.within cap = true := by
  simp [Memory.within]

/-- Storing inside the capacity keeps the bound. -/
theorem Memory.within_store (m : Memory) (a cap : Nat) (v : Byte) (h : m.within cap = true) (ha : a < cap) :
    (m.store a v).within cap = true := by
  induction m with
  | nil => simpa [Memory.store, Memory.within] using ha
  | cons e m ih =>
    obtain ⟨k, w⟩ := e
    obtain ⟨hk, hm⟩ := (Memory.within_cons k cap w m).1 h
    unfold Memory.store
    split_ifs with h1 h2
    · exact (Memory.within_cons _ _ _ _).2 ⟨ha, h⟩
    · exact (Memory.within_cons _ _ _ _).2 ⟨ha, hm⟩
    · exact (Memory.within_cons _ _ _ _).2 ⟨hk, ih hm⟩

@[simp] theorem State.mem_setMem_self (s : State) (sp : Space) (m : Memory) : (s.setMem sp m).mem sp = m := by
  cases sp <;> rfl

theorem State.mem_setMem_other (s : State) (sp sp' : Space) (m : Memory) (h : sp' ≠ sp) :
    (s.setMem sp m).mem sp' = s.mem sp' := by
  cases sp <;> cases sp' <;> first | rfl | exact absurd rfl h

/-- Read after write, same byte. -/
@[simp] theorem State.readByte_writeByte_self (s : State) (sp : Space) (a : Nat) (v : Byte) :
    (s.writeByte sp a v).readByte sp a = v := by
  simp [State.readByte, State.writeByte, Memory.lookup_store_self]

/-- A write leaves every other byte of its memory alone. -/
theorem State.readByte_writeByte_other (s : State) (sp : Space) (a b : Nat) (v : Byte) (h : b ≠ a) :
    (s.writeByte sp a v).readByte sp b = s.readByte sp b := by
  simp [State.readByte, State.writeByte, Memory.lookup_store_other _ _ _ _ h]

/-- A write leaves the other memories alone. -/
theorem State.mem_writeByte_other (s : State) (sp sp' : Space) (a : Nat) (v : Byte) (h : sp' ≠ sp) :
    (s.writeByte sp a v).mem sp' = s.mem sp' :=
  State.mem_setMem_other s sp sp' _ h

theorem State.readByte_writeByte_space (s : State) (sp sp' : Space) (a b : Nat) (v : Byte) (h : sp' ≠ sp) :
    (s.writeByte sp a v).readByte sp' b = s.readByte sp' b := by
  simp [State.readByte, State.mem_writeByte_other _ _ _ _ _ h]

/-- A write of FB changes the field `fb` and nothing else. -/
theorem State.writeByte_fb (s : State) (a : Nat) (v : Byte) :
    s.writeByte .fb a v = { s with fb := s.fb.store a v } := rfl

@[simp] theorem State.readRange_length (s : State) (sp : Space) (a n : Nat) : (s.readRange sp a n).length = n := by
  simp [State.readRange]

/-- Every byte of a read range is the byte at its address. -/
theorem State.readRange_getElem (s : State) (sp : Space) (a n i : Nat) (h : i < (s.readRange sp a n).length) :
    (s.readRange sp a n)[i] = s.readByte sp (a + i) := by
  simp [State.readRange]

/-- A write of a memory byte keeps the memory invariant. -/
theorem MemoryInv.writeByte {s : State} (h : MemoryInv s) (sp : Space) (a : Nat) (v : Byte)
    (ha : a < capacity s.cfg sp) : MemoryInv (s.writeByte sp a v) := by
  have hcfg : (s.writeByte sp a v).cfg = s.cfg := by cases sp <;> rfl
  refine ⟨fun sp' => ?_, fun sp' => ?_⟩
  · by_cases e : sp' = sp
    · subst e; simpa [State.writeByte] using Memory.wf_store _ a v (h.canonical sp')
    · rw [State.mem_writeByte_other _ _ _ _ _ e]; exact h.canonical sp'
  · rw [hcfg]
    by_cases e : sp' = sp
    · subst e; simpa [State.writeByte] using Memory.within_store _ a _ v (h.bounded sp') ha
    · rw [State.mem_writeByte_other _ _ _ _ _ e]; exact h.bounded sp'

/-- The memory invariant looks at the configuration and the memories only. -/
theorem MemoryInv.congr {s t : State} (h : MemoryInv s) (hc : t.cfg = s.cfg) (hm : ∀ sp, t.mem sp = s.mem sp) :
    MemoryInv t :=
  ⟨fun sp => by rw [hm]; exact h.canonical sp, fun sp => by rw [hm, hc]; exact h.bounded sp⟩

end Sys2Proof.Machine
end

