-- ==== Sys2Proof/Laws/Run.lean ====
section
/-! SUPPORT. Running the machine: turns, one call, a list of calls. -/

namespace Sys2Proof.Machine

/-! ### Runs -/

theorem Runs.zero (s : State) : Runs 0 s s := rfl

theorem Runs.succ {n : Nat} {s t u : State} (h : step s = .next t) (hr : Runs n t u) : Runs (n + 1) s u := by
  simp only [Runs, Host.Core.run] at hr ⊢
  have : Host.Core.step Sys2Proof.core s = .next t := h
  rw [this]; exact hr

theorem Runs.one {s t : State} (h : step s = .next t) : Runs 1 s t := Runs.succ h (Runs.zero t)

theorem Runs.trans {m n : Nat} {s t u : State} (h1 : Runs m s t) (h2 : Runs n t u) : Runs (m + n) s u := by
  induction m generalizing s with
  | zero =>
    have : s = t := by injection h1
    subst this; simpa using h2
  | succ m ih =>
    rw [Nat.succ_add]
    simp only [Runs, Host.Core.run] at h1
    cases hs : Host.Core.step Sys2Proof.core s with
    | next s' => rw [hs] at h1; exact Runs.succ hs (ih h1)
    | fault r => rw [hs] at h1; cases h1
    | refused r => rw [hs] at h1; cases h1

/-! ### Turns -/

/-- The block's turn when the host makes no move. -/
theorem step_of_undisturbed {n : Nat} {s : State} (h : s.undisturbed (n + 1) = true) :
    step s = (s.setScript s.script.tail).blockTurn := by
  unfold step
  cases hs : s.script with
  | nil =>
    have : s.setScript [] = s := by rw [← hs]; rfl
    simp [this]
  | cons x l =>
    simp only [State.undisturbed, hs, List.take_succ_cons, List.all_cons, Bool.and_eq_true, decide_eq_true_eq] at h
    simp [h.1]

theorem undisturbed_tail {n : Nat} {s : State} (h : s.undisturbed (n + 1) = true) :
    (s.setScript s.script.tail).undisturbed n = true := by
  cases hs : s.script with
  | nil => simp [State.undisturbed]
  | cons x l =>
    simp only [State.undisturbed, hs, List.take_succ_cons, List.all_cons, Bool.and_eq_true] at h
    exact h.2

/-- Turns depend on the script only. -/
theorem undisturbed_congr {n : Nat} {s t : State} (h : t.script = s.script) : t.undisturbed n = s.undisturbed n := by
  simp [State.undisturbed, h]

theorem undisturbed_mono {m n : Nat} {s : State} (hmn : m ≤ n) (h : s.undisturbed n = true) :
    s.undisturbed m = true := by
  simp only [State.undisturbed, List.all_eq_true] at h ⊢
  intro x hx
  exact h x ((List.take_prefix_take_left hmn).subset hx)

theorem undisturbed_drop {m n : Nat} {s t : State} (h : s.undisturbed (m + n) = true)
    (ht : t.script = s.script.drop m) : t.undisturbed n = true := by
  simp only [State.undisturbed, List.all_eq_true, ht] at h ⊢
  intro x hx
  rw [List.take_drop] at hx
  exact h x (List.mem_of_mem_drop hx)

/-- While an operation runs the block's turn is a sequencer step. -/
theorem blockTurn_busy {s : State} (h : s.busy = true) : s.blockTurn = .next s.seqStep := by
  simp [State.blockTurn, h]

/-- A step of a running operation that the host does not disturb. -/
theorem step_busy {n : Nat} {s : State} (h : s.undisturbed (n + 1) = true) (hb : s.busy = true) :
    step s = .next (s.setScript s.script.tail).seqStep := by
  rw [step_of_undisturbed h, blockTurn_busy (by simpa using hb)]

/-! ### The environment -/

@[simp] theorem Env.next_nowNs (e : Env) (n : Nat) : (e.next n).nowNs = n := rfl

/-- Good will does not depend on the clock. -/
theorem answersOk_congr : ∀ (n : Nat) (a b : Env), a.replies = b.replies → a.rest = b.rest →
    a.answersOk n = b.answersOk n
  | 0, _, _, _, _ => rfl
  | n + 1, a, b, h1, h2 => by
    have hr : a.reply = b.reply := by simp [Env.reply, h1, h2]
    simp only [Env.answersOk, hr]
    rw [answersOk_congr n { a with replies := a.replies.tail } { b with replies := b.replies.tail } (by simp [h1]) h2]

theorem answersOk_next {n : Nat} {e : Env} {t : Nat} (h : e.answersOk (n + 1) = true) :
    (e.next t).answersOk n = true := by
  simp only [Env.answersOk, Bool.and_eq_true] at h
  rw [answersOk_congr n (e.next t) { e with replies := e.replies.tail } rfl rfl]
  exact h.2

theorem answersOk_head {n : Nat} {e : Env} (h : e.answersOk (n + 1) = true) : e.reply.kind = .ok := by
  simp only [Env.answersOk, Bool.and_eq_true, decide_eq_true_eq] at h
  exact h.1

theorem answersOk_mono {m n : Nat} {e : Env} (hmn : m ≤ n) (h : e.answersOk n = true) : e.answersOk m = true := by
  induction n generalizing m e with
  | zero => have : m = 0 := by omega
            subst this; rfl
  | succ n ih =>
    cases m with
    | zero => rfl
    | succ m =>
      simp only [Env.answersOk, Bool.and_eq_true] at h ⊢
      exact ⟨h.1, ih (by omega) h.2⟩

/-! ### One call -/

/-- The state once the primitive `p` has returned and the environment is `e`. -/
def State.called (p : Event) (e : Env) (s : State) : State :=
  primEffect p { s with trace := s.trace ++ [p], inFlight := none, env := e }

/-- The environment once `p`, called now and answered at once, has returned. -/
def envAfter (p : Event) (s : State) : Env :=
  s.env.next (max (s.env.nowNs + s.env.reply.dtNs) (wakeTime p s.env.nowNs))

/-- A primitive answered `ok` returns: its event is in the trace, its effect is done, the clock is at or past the
wake time. -/
theorem call_ok {s : State} {p : Event} (hf : s.inFlight = none) (hr : s.env.reply.kind = .ok) :
    s.call p = .returned (s.called p (envAfter p s)) := by
  unfold State.call State.beginCall State.called envAfter State.setEnv State.land
  rw [hf]
  cases p <;> simp [hr, answerOf, primEffect]

/-- `tp.close()` returns whatever the environment answers (10_state.md R45). -/
theorem call_close {s : State} (hf : s.inFlight = none) :
    s.call .closeCh = .returned (s.called .closeCh (s.env.next (s.env.nowNs + s.env.reply.dtNs))) := by
  unfold State.call State.beginCall State.called State.setEnv State.land
  rw [hf]
  simp [answerOf, primEffect, wakeTime]

/-- Every outcome of a call, its event appended once: still waiting, returned with its effect, or failed. -/
theorem call_cases (s : State) (p : Event) : ∃ n, s.env.nowNs ≤ n ∧
    (s.call p = .pending ((s.beginCall p).setEnv (s.env.next n)) ∨
      s.call p = .returned (primEffect p ((s.beginCall p).setEnv (s.env.next n)).land) ∨
      ∃ k, s.call p = .failed (((s.beginCall p).setEnv (s.env.next n)).land.noteFailure p k)) := by
  simp only [State.call]
  cases answerOf p s.env.reply.kind _ with
  | pending => exact ⟨_, by omega, .inl rfl⟩
  | returned => exact ⟨_, by omega, .inr (.inl rfl)⟩
  | failed k => exact ⟨_, by omega, .inr (.inr ⟨k, rfl⟩)⟩

/-- Only open, level and write can fail (60_exceptions.md R243). -/
theorem answerOf_failed {p : Event} {k : ReplyKind} {due : Bool} {n : Nat} (h : answerOf p k due = .failed n) :
    (∃ a b, p = .openCh a b) ∨ p.isGroupCall = true := by
  cases p <;> cases k <;> simp [answerOf, Event.isGroupCall] at h ⊢
  split at h <;> simp at h

theorem call_failed_kind {s t : State} {p : Event} (h : s.call p = .failed t) :
    (∃ a b, p = .openCh a b) ∨ p.isGroupCall = true := by
  simp only [State.call] at h
  generalize ha : answerOf p s.env.reply.kind _ = a at h
  cases a with
  | pending => simp at h
  | returned => simp at h
  | failed n => exact answerOf_failed ha

/-- The effects of a list of primitives, in order. -/
def effects (l : List Event) (s : State) : State := l.foldl (fun t p => primEffect p t) s

@[simp] theorem effects_nil (s : State) : effects [] s = s := rfl

@[simp] theorem effects_cons (p : Event) (l : List Event) (s : State) :
    effects (p :: l) s = effects l (primEffect p s) := rfl

/-- The state once the primitives `l` of a position have returned, with the environment and turns left. -/
def State.calledAll (l : List Event) (e : Env) (turns : List Turn) (s : State) : State :=
  { effects l s with trace := s.trace ++ l, todo := [], inFlight := none, env := e, script := turns }

/-- An effect does not look at the fields a call itself writes. -/
theorem primEffect_frame (p : Event) (s : State) (t : List Event) (d : List Event) (f : Option Nat) (e : Env)
    (c : List Turn) :
    primEffect p { s with trace := t, todo := d, inFlight := f, env := e, script := c } =
      { primEffect p s with trace := t, todo := d, inFlight := f, env := e, script := c } := by
  cases p with
  | level l v => cases l <;> rfl
  | _ => rfl

theorem effects_frame (l : List Event) (s : State) (t : List Event) (d : List Event) (f : Option Nat) (e : Env)
    (c : List Turn) :
    effects l { s with trace := t, todo := d, inFlight := f, env := e, script := c } =
      { effects l s with trace := t, todo := d, inFlight := f, env := e, script := c } := by
  induction l generalizing s with
  | nil => rfl
  | cons p l ih => rw [effects_cons, effects_cons, primEffect_frame, ih]

theorem called_eq (p : Event) (e : Env) (s : State) :
    s.called p e = { primEffect p s with trace := s.trace ++ [p], inFlight := none, env := e } :=
  primEffect_frame p s (s.trace ++ [p]) s.todo none e s.script |>.trans (by
    cases p with
    | level l v => cases l <;> rfl
    | _ => rfl)

/-- A call and then the rest of the position are the whole position. -/
theorem calledAll_step (p : Event) (l : List Event) (e1 e : Env) (c1 c : List Turn) (s : State) :
    (((s.setScript c1).called p e1).setTodo l).calledAll l e c = s.calledAll (p :: l) e c := by
  have h : ((s.setScript c1).called p e1).setTodo l =
      { primEffect p s with trace := s.trace ++ [p], todo := l, inFlight := none, env := e1, script := c1 } := by
    rw [called_eq]
    cases p with
    | level l v => cases l <;> rfl
    | _ => rfl
  unfold State.calledAll
  rw [h, effects_frame, effects_cons]
  simp

theorem calledAll_nil {s : State} {e : Env} {c : List Turn} (ht : s.todo = []) (hf : s.inFlight = none)
    (he : s.env = e) (hc : s.script = c) : s.calledAll [] e c = s := by
  subst he hc
  unfold State.calledAll
  rw [effects_nil, List.append_nil, ← ht, ← hf]

theorem calledAll_one (p : Event) (e : Env) (c : List Turn) (s : State) :
    ((s.setScript c).called p e).setTodo [] = s.calledAll [p] e c := by
  rw [← calledAll_step p [] e e c c s]
  refine (calledAll_nil rfl ?_ ?_ ?_).symm <;> rw [called_eq]
  · rfl
  · rfl
  · cases p with
    | level l v => cases l <;> rfl
    | _ => rfl

/-- The earliest clock value at which a list of primitives, the first called at `n`, can have returned. -/
def earliest : Nat → List Event → Nat
  | n, [] => n
  | n, p :: l => earliest (max n (wakeTime p n)) l

theorem earliest_append (n : Nat) (a b : List Event) : earliest n (a ++ b) = earliest (earliest n a) b := by
  induction a generalizing n with
  | nil => rfl
  | cons p a ih => exact ih _

theorem wakeTime_mono {m n : Nat} (p : Event) (h : m ≤ n) : wakeTime p m ≤ wakeTime p n := by
  cases p <;> simp only [wakeTime] <;> omega

theorem earliest_mono {m n : Nat} (l : List Event) (h : m ≤ n) : earliest m l ≤ earliest n l := by
  induction l generalizing m n with
  | nil => exact h
  | cons p l ih =>
    have := wakeTime_mono p h
    exact ih (by omega)

/-- Time does not run backwards along a list of calls. -/
theorem le_earliest (n : Nat) (l : List Event) : n ≤ earliest n l := by
  induction l generalizing n with
  | nil => exact le_refl n
  | cons p l ih => exact le_trans (le_max_left _ _) (ih _)

theorem earliest_cons_le (p : Event) (l : List Event) (s : State) (n : Nat)
    (h : earliest (envAfter p s).nowNs l ≤ n) : earliest s.env.nowNs (p :: l) ≤ n := by
  refine le_trans (earliest_mono l ?_) h
  simp only [envAfter, Env.next_nowNs]
  omega

/-- A position's calls, all answered `ok`, one step each: the events are in the trace, the effects are done, and the
sequencer goes on from the end of the position. -/
theorem runs_calls (l : List Event) : ∀ (s : State), l ≠ [] → s.busy = true → s.todo = l → s.inFlight = none →
    s.undisturbed l.length = true → s.env.answersOk l.length = true →
    ∃ e : Env, earliest s.env.nowNs l ≤ e.nowNs ∧
      (∀ m, s.env.answersOk (l.length + m) = true → e.answersOk m = true) ∧
      Runs l.length s (s.calledAll l e (s.script.drop l.length)).afterPosition := by
  induction l with
  | nil => intro s h; exact absurd rfl h
  | cons p rest ih =>
    intro s _ hb ht hf hu ha
    have hk : s.env.reply.kind = .ok := answersOk_head ha
    have hcall : (s.setScript s.script.tail).call p = .returned ((s.setScript s.script.tail).called p (envAfter p s)) :=
      call_ok (by simpa using hf) (by simpa using hk)
    have hstep : step s =
        .next (((s.setScript s.script.tail).called p (envAfter p s)).afterPrimitive rest) := by
      rw [step_busy (n := rest.length) hu hb]
      unfold State.seqStep
      rw [show (s.setScript s.script.tail).todo = p :: rest by simpa using ht]
      simp only [hcall]
    cases hr : rest with
    | nil =>
      subst hr
      refine ⟨envAfter p s, ?_, fun m hm => ?_, ?_⟩
      · exact earliest_cons_le p [] s _ (le_refl _)
      · rw [show [p].length + m = m + 1 by simp [Nat.add_comm]] at hm
        exact answersOk_next hm
      · refine Runs.one ?_
        rw [hstep]
        simp only [State.afterPrimitive, calledAll_one, List.length_singleton, List.drop_one]
    | cons q qs =>
      rw [← hr]
      have hne : rest ≠ [] := by rw [hr]; simp
      have haft : ∀ t : State, t.afterPrimitive rest = t.setTodo rest := by intro t; rw [hr]; rfl
      rw [haft] at hstep
      generalize hs1 : ((s.setScript s.script.tail).called p (envAfter p s)).setTodo rest = s1 at hstep
      have hscr : s1.script = s.script.tail := by
        rw [← hs1, called_eq]; cases p with
        | level l v => cases l <;> rfl
        | _ => rfl
      have henv : s1.env = envAfter p s := by rw [← hs1, called_eq]; rfl
      have hbusy : s1.busy = true := by
        rw [← hs1, called_eq, ← hb]; cases p with
        | level l v => cases l <;> rfl
        | _ => rfl
      have hu1 : s1.undisturbed rest.length = true := by
        rw [undisturbed_congr (s := s.setScript s.script.tail) (by simpa using hscr)]; exact undisturbed_tail hu
      obtain ⟨e, he, hmono, hrun⟩ := ih s1 hne hbusy (by rw [← hs1]; rfl) (by rw [← hs1, called_eq]; rfl) hu1
        (by rw [henv]; exact answersOk_next ha)
      refine ⟨e, ?_, fun m hm => hmono m ?_, ?_⟩
      · rw [henv] at he; exact earliest_cons_le p rest s _ he
      · rw [show (p :: rest).length + m = (rest.length + m) + 1 by simp; omega] at hm
        rw [henv]; exact answersOk_next hm
      · have h2 := Runs.succ hstep hrun
        rw [← hs1, calledAll_step] at h2
        rw [← hs1] at hscr
        rw [hscr] at h2
        simpa using h2

end Sys2Proof.Machine
end

