-- ==== Sys2Proof/Laws/Step.lean ====
section
/-! SUPPORT. Everything one step can do, said once: a host move, a request, a step of the running operation, or
nothing. -/

namespace Sys2Proof.Machine

/-- Everything a step that goes on can do, on the state with the turn taken off the script. -/
theorem step_cases {s t : State} (h : step s = .next t) :
    (∃ v, t = { s.setScript s.script.tail with rdata := v }) ∨
      (∃ num v rest, num ≠ 0x1F ∧ s.script = .host (.writeReg num v) :: rest ∧
        t = (s.setScript s.script.tail).writeLatch num v) ∨
      (∃ sp a v, s.busy = false ∧ a < capacity s.cfg sp ∧ t = (s.setScript s.script.tail).writeByte sp a v) ∨
      (∃ rest, s.script = .host .assertReset :: rest ∧ t = (s.setScript s.script.tail).assertReset) ∨
      (∃ code, (s.setScript s.script.tail).issue code = .next t) ∨
      (s.busy = true ∧ t = (s.setScript s.script.tail).seqStep) ∨
      t = s.setScript s.script.tail ∨
      ∃ code rest, s.busy = false ∧ s.err = 0 ∧ s.held = code :: rest ∧
        State.issue code { s.setScript s.script.tail with held := rest } = .next t := by
  have block : ∀ c : State, c.busy = s.busy → c.err = s.err → c.held = s.held →
      c.blockTurn = .next t → (s.busy = true ∧ t = c.seqStep) ∨ t = c ∨
        ∃ code rest, s.busy = false ∧ s.err = 0 ∧ s.held = code :: rest ∧
          State.issue code { c with held := rest } = .next t := by
    intro c hb he hh hc
    unfold State.blockTurn at hc
    split at hc
    · rename_i hbusy
      injection hc with hc
      exact .inl ⟨by rw [← hb]; exact hbusy, hc.symm⟩
    · rename_i hbusy
      split at hc
      · injection hc with hc; exact .inr (.inl hc.symm)
      · rename_i herr
        split at hc
        · injection hc with hc; exact .inr (.inl hc.symm)
        · rename_i code rest hheld
          refine .inr (.inr ⟨code, rest, ?_, ?_, by rw [← hh]; exact hheld, hc⟩)
          · rw [← hb]; simpa using hbusy
          · rw [← he]; simpa using herr
  unfold step at h
  cases hs : s.script with
  | nil =>
    rw [hs] at h
    have e : s.setScript [].tail = s := by
      show s.setScript [] = s
      rw [← hs]; rfl
    simp only [] at h
    rw [e]
    rcases block s rfl rfl rfl h with hc | hc | hc
    · exact .inr (.inr (.inr (.inr (.inr (.inl hc)))))
    · exact .inr (.inr (.inr (.inr (.inr (.inr (.inl hc))))))
    · exact .inr (.inr (.inr (.inr (.inr (.inr (.inr hc))))))
  | cons x rest =>
    rw [hs] at h
    show _ ∨ _
    cases x with
    | block =>
      simp only [] at h
      rcases block (s.setScript rest) rfl rfl rfl h with hc | hc | hc
      · exact .inr (.inr (.inr (.inr (.inr (.inl hc)))))
      · exact .inr (.inr (.inr (.inr (.inr (.inr (.inl hc))))))
      · exact .inr (.inr (.inr (.inr (.inr (.inr (.inr hc))))))
    | host m =>
      simp only [] at h
      cases m with
      | writeReg num v =>
        simp only [State.hostMove] at h
        split at h
        · exact .inr (.inr (.inr (.inr (.inl ⟨_, h⟩))))
        · rename_i hn
          injection h with h
          exact .inr (.inl ⟨num, v, rest, hn, rfl, h.symm⟩)
      | readReg num =>
        simp only [State.hostMove] at h
        injection h with h
        exact .inl ⟨_, h.symm⟩
      | writeMem sp a v =>
        simp only [State.hostMove] at h
        split at h
        · cases h
        · rename_i hb
          split at h
          · rename_i hm
            injection h with h
            exact .inr (.inr (.inl ⟨sp, a, v, by simpa using hb, of_decide_eq_true hm, h.symm⟩))
          · cases h
      | readMem sp a =>
        simp only [State.hostMove] at h
        split at h
        · injection h with h; exact .inl ⟨_, h.symm⟩
        · cases h
      | assertReset =>
        simp only [State.hostMove] at h
        injection h with h
        exact .inr (.inr (.inr (.inl ⟨rest, rfl, h.symm⟩)))

end Sys2Proof.Machine
end

