-- ==== Sys2Proof/Laws/Sequencer.lean ====
section
/-! SUPPORT. Everything the sequencer can do, said once; the primitives of its positions. -/

namespace Sys2Proof.Machine

/-! ### One call, field by field -/

/-- The state while a call of `p` is not answered: the event is in the trace once, the clock may have moved. -/
def State.waiting (p : Event) (n : Nat) (s : State) : State :=
  { s with
    trace := s.trace ++ (if s.inFlight = none then [p] else [])
    inFlight := some (s.inFlight.getD (wakeTime p s.env.nowNs))
    env := s.env.next n }

/-- The state when a call of `p` has ended: the event is in the trace once, no call is in flight. -/
def State.answered (p : Event) (n : Nat) (s : State) : State :=
  { s with
    trace := s.trace ++ (if s.inFlight = none then [p] else [])
    inFlight := none
    env := s.env.next n }

theorem beginCall_setEnv (p : Event) (n : Nat) (s : State) :
    (s.beginCall p).setEnv (s.env.next n) = s.waiting p n := by
  unfold State.beginCall State.waiting State.setEnv
  cases h : s.inFlight with
  | none => simp
  | some w => simp; rw [← h]

theorem beginCall_land (p : Event) (n : Nat) (s : State) :
    ((s.beginCall p).setEnv (s.env.next n)).land = s.answered p n := by
  rw [beginCall_setEnv]; rfl

/-- Everything a step of a position with primitives can do (10_state.md R45, R47). -/
theorem seqStep_calls {s : State} {p : Event} {rest : List Event} (h : s.todo = p :: rest) :
    ∃ n, s.env.nowNs ≤ n ∧
      (s.seqStep = s.waiting p n ∨
        s.seqStep = (primEffect p (s.answered p n)).afterPrimitive rest ∨
        ∃ k, s.seqStep = ((s.answered p n).noteFailure p k).raise .io) := by
  obtain ⟨n, hn, hc⟩ := call_cases s p
  refine ⟨n, hn, ?_⟩
  unfold State.seqStep
  rw [h]
  rw [beginCall_setEnv, show (s.waiting p n).land = s.answered p n from rfl] at hc
  rcases hc with hc | hc | ⟨k, hc⟩
  · exact .inl (by simp only [hc])
  · exact .inr (.inl (by simp only [hc]))
  · exact .inr (.inr ⟨k, by simp only [hc]⟩)

/-- A position without primitives makes an internal step. -/
theorem seqStep_internal {s : State} (h : s.todo = []) : s.seqStep = s.internalStep := by
  unfold State.seqStep
  rw [h]

/-- The effect of a primitive is on the line levels and the transport flag only (10_state.md R45). -/
theorem primEffect_eq (p : Event) (s : State) : ∃ dc rst lines opened,
    primEffect p s = { s with dc := dc, rst := rst, linesOut := lines, tpOpen := opened } ∧
      (p.isGroupCall = true → opened = s.tpOpen) := by
  cases p with
  | level l v => cases l <;> exact ⟨_, _, _, _, rfl, fun _ => rfl⟩
  | openCh _ _ => exact ⟨_, _, _, _, rfl, fun h => by cases h⟩
  | write _ => exact ⟨_, _, _, _, rfl, fun _ => rfl⟩
  | pause _ => exact ⟨_, _, _, _, rfl, fun _ => rfl⟩
  | sleepUntil _ _ => exact ⟨_, _, _, _, rfl, fun _ => rfl⟩
  | closeCh => exact ⟨_, _, _, _, rfl, fun h => by cases h⟩

/-! ### The primitives of the positions -/

/-- Every encoded command is a valid command's groups. -/
theorem encode_some {c : Config} {k : Command} {gs : List Group} (h : encode c k = some gs) :
    gs = groupsOf c k := by
  unfold encode at h
  split at h
  · exact (Option.some.inj h).symm
  · cases h

theorem groupsOf_ne_nil (c : Config) (k : Command) : groupsOf c k ≠ [] := by
  unfold groupsOf
  split <;> simp

theorem commandEvents_valid {c : Config} {k : Command} (h : validCommand c k = true) :
    commandEvents c k = emission c (groupsOf c k) := by
  simp [commandEvents, encode, h]

theorem emission_ne_nil (c : Config) {gs : List Group} (h : gs ≠ []) : emission c gs ≠ [] := by
  cases gs with
  | nil => exact absurd rfl h
  | cons g gs => simp [emission]

theorem emission_isGroupCall (c : Config) (gs : List Group) : (emission c gs).all Event.isGroupCall = true := by
  induction gs with
  | nil => rfl
  | cons g gs ih =>
    simp only [emission, List.flatMap_cons, List.all_append, Bool.and_eq_true] at ih ⊢
    exact ⟨rfl, ih⟩

/-- The ranges the frame triple sends are valid (44_streamer.md R211: "the ranges are constants and valid"). -/
theorem validRange_whole {n : Nat} (h1 : 2 ≤ n) (h2 : n ≤ 65536) :
    validRange 0 (BitVec.ofNat 16 (n - 1)) (n - 1) = true := by
  have : (BitVec.ofNat 16 (n - 1)).toNat = n - 1 := by
    simp only [BitVec.toNat_ofNat]; exact Nat.mod_eq_of_lt (by omega)
  simp [validRange, this]

theorem Config.wf_bounds {c : Config} (h : c.wf = true) :
    2 ≤ c.panelW ∧ 2 ≤ c.panelH ∧ c.panelW ≤ 65536 ∧ c.panelH ≤ 65536 ∧ 1 ≤ c.cropW ∧ 1 ≤ c.cropH := by
  simp only [Config.wf, Bool.and_eq_true, decide_eq_true_eq] at h
  exact ⟨h.1.1.1.1.1.1, h.1.1.1.1.1.2, h.1.1.1.1.2, h.1.1.1.2, h.1.1.2, h.1.2⟩

theorem colEvents_eq {c : Config} (h : c.wf = true) :
    colEvents c = opcodeCalls c 0x2A ++ dataCalls c (rangeBytes 0 (BitVec.ofNat 16 (c.panelW - 1))) := by
  obtain ⟨h1, _, h2, _⟩ := Config.wf_bounds h
  rw [colEvents, commandEvents_valid (show validCommand c (.setColumnRange _ _) = true from validRange_whole h1 h2)]
  rfl

theorem rowEvents_eq {c : Config} (h : c.wf = true) :
    rowEvents c = opcodeCalls c 0x2B ++ dataCalls c (rangeBytes 0 (BitVec.ofNat 16 (c.panelH - 1))) := by
  obtain ⟨_, h1, _, h2, _⟩ := Config.wf_bounds h
  rw [rowEvents, commandEvents_valid (show validCommand c (.setRowRange _ _) = true from validRange_whole h1 h2)]
  rfl

/-- The events of a command with parameters. -/
theorem emission_params {c : Config} {k : Command} (h : paramBytes c k ≠ []) :
    emission c (groupsOf c k) = opcodeCalls c (opcodeOf k) ++ dataCalls c (paramBytes c k) := by
  unfold groupsOf
  split
  · rename_i hp; exact absurd hp h
  · rename_i p ps hp; rw [← hp] at *; rw [hp]; rfl

/-- The events of a command without parameters. -/
theorem emission_plain {c : Config} {k : Command} (h : paramBytes c k = []) :
    emission c (groupsOf c k) = opcodeCalls c (opcodeOf k) := by
  unfold groupsOf
  rw [h]
  rfl

theorem memEvents_eq {s : State} {i : Nat} (h : 0 < s.cfg.frameBytes) :
    memEvents s i = opcodeCalls s.cfg 0x2C ++ dataCalls s.cfg (s.frameBytesOf i) := by
  rw [memEvents, commandEvents_valid rfl, emission_params]
  · rfl
  · intro hn
    have := congrArg List.length hn
    simp [paramBytes] at this
    omega

theorem frameBytes_pos {c : Config} (h : c.wf = true) : 0 < c.frameBytes := by
  obtain ⟨h1, h2, _⟩ := Config.wf_bounds h
  unfold Config.frameBytes
  positivity

/-- The initialisation table has primitives at each of its fifteen steps. -/
theorem initEvents_ne_nil (c : Config) {k : Nat} (h : k ≤ lastInitStep) : initEvents c k ≠ [] := by
  have h15 : k < 15 := by unfold lastInitStep at h; omega
  interval_cases k <;> simp [initEvents, commandEvents, encode, validCommand, gammaCode, colorCode,
    emission, groupsOf, paramBytes]

/-- Frame positions have primitives. -/
theorem colEvents_ne_nil {c : Config} (h : c.wf = true) : colEvents c ≠ [] := by
  rw [colEvents_eq h]; simp [opcodeCalls]

theorem rowEvents_ne_nil {c : Config} (h : c.wf = true) : rowEvents c ≠ [] := by
  rw [rowEvents_eq h]; simp [opcodeCalls]

theorem memEvents_ne_nil {s : State} (i : Nat) (h : s.cfg.wf = true) : memEvents s i ≠ [] := by
  rw [memEvents_eq (frameBytes_pos h)]; simp [opcodeCalls]

/-! ### The wire discipline of lists of calls -/

/-- A list of calls that is in order by itself is in order after any level. -/
theorem disciplined_any {cl : Bool} {l : List Event} (o : Option Bool) (h : disciplined cl none l = true) :
    disciplined cl o l = true := by
  cases o with
  | none => exact h
  | some v =>
    cases l with
    | nil => rfl
    | cons p l =>
      cases p with
      | level x b => cases x <;> exact h
      | write b => simp [disciplined] at h
      | _ => exact h

theorem disciplined_append {cl : Bool} {a b : List Event} {o : Option Bool} (ha : disciplined cl o a = true)
    (hb : disciplined cl none b = true) : disciplined cl o (a ++ b) = true := by
  induction a generalizing o with
  | nil => exact disciplined_any o hb
  | cons p a ih =>
    cases p with
    | level x v => cases x <;> cases o <;> exact ih ha
    | write l =>
      cases o with
      | none => simp [disciplined] at ha
      | some v =>
        simp only [disciplined, List.cons_append, Bool.and_eq_true] at ha ⊢
        exact ⟨ha.1, ih ha.2⟩
    | _ => cases o <;> exact ih ha

theorem disciplined_prefix {cl : Bool} {a b : List Event} {o : Option Bool}
    (h : disciplined cl o (a ++ b) = true) : disciplined cl o a = true := by
  induction a generalizing o with
  | nil => cases o <;> rfl
  | cons p a ih =>
    cases p with
    | level x v => cases x <;> cases o <;> exact ih h
    | write l =>
      cases o with
      | none => simp [disciplined] at h
      | some v =>
        simp only [disciplined, List.cons_append, Bool.and_eq_true] at h ⊢
        exact ⟨h.1, ih h.2⟩
    | _ => cases o <;> exact ih h

theorem opcodeOf_mem (k : Command) : opcodeOf k ∈ wireOpcodes := by
  cases k <;> (simp only [opcodeOf]; decide)

theorem disciplined_opcode (c : Config) {op : Byte} (h : op ∈ wireOpcodes) :
    disciplined c.dcCommandLevel none (opcodeCalls c op) = true := by
  simp only [opcodeCalls, disciplined, groupOk, if_true, Bool.and_true, List.any_eq_true, decide_eq_true_eq]
  exact ⟨op, h, rfl⟩

theorem disciplined_data (c : Config) {l : List Byte} (h : l ≠ []) :
    disciplined c.dcCommandLevel none (dataCalls c l) = true := by
  cases hc : c.dcCommandLevel <;> simp [dataCalls, disciplined, groupOk, hc, h]

/-- Everything `emit(encode(k))` calls is in order (30_encoding.md R94, R99). -/
theorem disciplined_groupsOf (c : Config) (k : Command) :
    disciplined c.dcCommandLevel none (emission c (groupsOf c k)) = true := by
  by_cases h : paramBytes c k = []
  · rw [emission_plain h]; exact disciplined_opcode c (opcodeOf_mem k)
  · rw [emission_params h]
    exact disciplined_append (disciplined_opcode c (opcodeOf_mem k)) (disciplined_data c h)

theorem disciplined_command (c : Config) (k : Command) :
    disciplined c.dcCommandLevel none (commandEvents c k) = true := by
  cases h : encode c k with
  | none => simp [commandEvents, h, emission, disciplined]
  | some gs =>
    have := encode_some h
    subst this
    simpa [commandEvents, h] using disciplined_groupsOf c k

/-- The primitives of every position are in order. -/
theorem disciplined_eventsAt (s : State) (q : Seq) :
    disciplined s.cfg.dcCommandLevel none (eventsAt s q) = true := by
  have init : ∀ k, disciplined s.cfg.dcCommandLevel none (initEvents s.cfg k) = true := by
    intro k
    unfold initEvents
    split <;> first | rfl | exact disciplined_command _ _
  cases q with
  | init k => exact init k
  | playInit k => exact init k
  | playFrame i ph => cases ph <;> first | rfl | exact disciplined_command _ _
  | _ => rfl

end Sys2Proof.Machine
end

