-- ==== Sys2Proof/Laws/Commands.lean ====
section
/-! SUPPORT. The life of a panel command, said once for all sixteen: accepted, refused, run to its end. -/

namespace Sys2Proof.Machine

/-- The effect of the calls of a byte group on the state: the mode line ends at the level of the last group. -/
theorem effects_opcode (c : Config) (op : Byte) (s : State) :
    effects (opcodeCalls c op) s = { s with dc := c.dcCommandLevel } := rfl

theorem effects_data (c : Config) (l : List Byte) (s : State) :
    effects (dataCalls c l) s = { s with dc := !c.dcCommandLevel } := rfl

theorem effects_append (a b : List Event) (s : State) : effects (a ++ b) s = effects b (effects a s) := by
  simp [effects, List.foldl_append]

theorem effects_opcode_data (c : Config) (op : Byte) (l : List Byte) (s : State) :
    effects (opcodeCalls c op ++ dataCalls c l) s = { s with dc := !c.dcCommandLevel } := by
  rw [effects_append, effects_opcode, effects_data]

/-- What is fair for more steps is fair for fewer. -/
theorem FairFor.mono {m n : Nat} {s : State} (h : FairFor n s) (hm : m ≤ n) : FairFor m s :=
  ⟨h.ready, undisturbed_mono hm h.quietHost, answersOk_mono hm h.goodReplies⟩

/-- An accepted command whose transport is closed is an IOError (40_commands_plain.md R120). -/
theorem command_closed {s : State} {i : Instr} {k : Command} (he : s.err = 0) (hb : s.busy = false) (hi : i ≠ .stop)
    (hg : groupsRequested s i = some (some (groupsOf s.cfg k))) (ho : s.tpOpen = false) :
    exec i s = .next (errorState .io (encodeOp i) s) := by
  rw [exec_ready hi he hb]
  simp only [startOf, hg, State.startCommand, State.accept_tpOpen, ho]
  rw [if_neg (by simp), raise_accept _ _ he]

/-- An accepted command with an invalid argument is a ValidationError, whether the transport is open or not
(60_exceptions.md R249). -/
theorem command_invalid {s : State} {i : Instr} (he : s.err = 0) (hb : s.busy = false) (hi : i ≠ .stop)
    (hg : groupsRequested s i = some none) : exec i s = .next (errorState .validation (encodeOp i) s) := by
  rw [exec_ready hi he hb]
  simp only [startOf, hg, State.startCommand]
  rw [raise_accept _ _ he]

/-- An accepted command with the transport open runs to its end. -/
theorem command_runs {s : State} {i : Instr} {k : Command} {calls : List Event} {level : Bool}
    (h : FairFor calls.length s) (hi : i ≠ .stop) (hg : groupsRequested s i = some (some (groupsOf s.cfg k)))
    (ho : s.tpOpen = true) (hc : emission s.cfg (groupsOf s.cfg k) = calls)
    (hl : ∀ u : State, effects calls u = { u with dc := level }) : CommandCompletes i calls level s := by
  have hne : calls ≠ [] := hc ▸ emission_ne_nil _ (groupsOf_ne_nil _ _)
  refine ⟨?_, ?_⟩
  · rw [exec_ready hi h.ready.noError h.ready.notBusy]
    simp only [startOf, hg, State.startCommand]
    rw [if_pos (by simpa using ho), State.accept_cfg, hc]
    rfl
  · obtain ⟨e, he, -, hr⟩ := runs_calls calls (commandAccepted (encodeOp i) calls s) hne rfl rfl h.ready.noCall
      h.quietHost h.goodReplies
    refine ⟨e, le_trans (le_earliest _ _) he, ?_⟩
    have : (State.calledAll calls e ((commandAccepted (encodeOp i) calls s).script.drop calls.length)
        (commandAccepted (encodeOp i) calls s)).afterPosition = commandDone (encodeOp i) calls level e s := by
      unfold State.calledAll
      rw [hl]
      rfl
    rw [← this]
    exact hr

end Sys2Proof.Machine
end

