-- ==== Sys2Proof/Laws/Panel.lean ====
section
/-! SUPPORT. What the panel can tell of traces: the tagged byte stream of a concatenation, and the two things that do
not show (10_state.md R46). -/

namespace Sys2Proof.Machine

/-- The level of the mode line after a trace. -/
def dcAfter : Option Bool → List Event → Option Bool
  | dc, [] => dc
  | _, .level .dc v :: t => dcAfter (some v) t
  | dc, .level .rst _ :: t => dcAfter dc t
  | dc, .write _ :: t => dcAfter dc t
  | dc, .pause _ :: t => dcAfter dc t
  | dc, .sleepUntil _ _ :: t => dcAfter dc t
  | dc, .openCh _ _ :: t => dcAfter dc t
  | dc, .closeCh :: t => dcAfter dc t

/-- The tagged byte stream of a trace that goes on. -/
theorem taggedBytes_append (a b : List Event) : ∀ dc : Option Bool,
    taggedBytes dc (a ++ b) = taggedBytes dc a ++ taggedBytes (dcAfter dc a) b := by
  induction a with
  | nil => intro dc; rfl
  | cons p a ih =>
    intro dc
    cases p with
    | level l v => cases l <;> exact ih _
    | write l =>
      simp only [List.cons_append, taggedBytes, dcAfter, List.append_assoc]
      rw [ih]
    | _ => exact ih _

/-- An opcode group: one byte at the command level, whatever was sent before. -/
theorem taggedBytes_opcode (c : Config) (op : Byte) (dc : Option Bool) :
    taggedBytes dc (opcodeCalls c op) = [(some c.dcCommandLevel, op)] := rfl

/-- A data group: its bytes at the data level, whatever was sent before. -/
theorem taggedBytes_data (c : Config) (l : List Byte) (dc : Option Bool) :
    taggedBytes dc (dataCalls c l) = l.map (fun b => (some (!c.dcCommandLevel), b)) := by
  simp [taggedBytes, dataCalls]

/-- A command that runs to its end adds what its calls say to the tagged byte stream. -/
theorem CommandCompletes.addsTaggedBytes {i : Instr} {calls : List Event} {level : Bool} {s : State}
    {l : List (Bool × Byte)} (h : CommandCompletes i calls level s) (he : s.err = 0)
    (hl : ∀ dc, taggedBytes dc calls = l.map (fun p => (some p.1, p.2))) : AddsTaggedBytes i l s := by
  obtain ⟨ha, e, -, hr⟩ := h
  refine ⟨_, _, _, ha, hr, rfl, he, ?_⟩
  show taggedBytes none (s.trace ++ calls) = _
  rw [taggedBytes_append, hl]

theorem lineItems_split (line : Line) (a b : List Byte) (before after : List Event) : ∀ now : Option Bool,
    lineItems line now (before ++ .write (a ++ b) :: after) =
      lineItems line now (before ++ .write a :: .write b :: after) := by
  induction before with
  | nil => intro now; simp [lineItems]
  | cons p t ih =>
    intro now
    cases p with
    | level l v => simp only [List.cons_append, lineItems, ih]
    | _ => simp only [List.cons_append, lineItems, ih]

/-- Cutting a write in two under one mode selection does not show (41_commands_param.md R152). -/
theorem panelEquivalent_split (before after : List Event) (a b : List Byte) :
    PanelEquivalent (before ++ .write (a ++ b) :: after) (before ++ .write a :: .write b :: after) :=
  ⟨by simp [taggedBytes_append, taggedBytes], lineItems_split _ _ _ _ _ _, lineItems_split _ _ _ _ _ _⟩

theorem lineItems_swap (line : Line) (v w : Bool) (before after : List Event) : ∀ now : Option Bool,
    lineItems line now (before ++ .level .dc v :: .level .rst w :: after) =
      lineItems line now (before ++ .level .rst w :: .level .dc v :: after) := by
  induction before with
  | nil => intro now; cases line <;> simp [lineItems]
  | cons p t ih =>
    intro now
    cases p with
    | level l v => simp only [List.cons_append, lineItems, ih]
    | _ => simp only [List.cons_append, lineItems, ih]

/-- The order of a change of DC and a change of RST with no byte between them does not show (44_streamer.md R205). -/
theorem panelEquivalent_swap (before after : List Event) (v w : Bool) :
    PanelEquivalent (before ++ .level .dc v :: .level .rst w :: after)
      (before ++ .level .rst w :: .level .dc v :: after) :=
  ⟨by simp [taggedBytes_append, taggedBytes], lineItems_swap _ _ _ _ _ _, lineItems_swap _ _ _ _ _ _⟩

end Sys2Proof.Machine
end

