-- ==== Sys2Proof/Laws/PerInstr.lean ====
section
/-! SUPPORT. Statements for every operation, one lemma per constructor. -/

namespace Sys2Proof.Laws.DecodeEncode

/-- The operation is well formed and its code reads back as the operation, also as a word of the opcode table
(30_encoding.md R110). -/
def Statement (i : Instr) : Prop :=
  i.wf = true ∧ decodeOp (encodeOp i) = .instr i ∧ decodeTableWord 8 (encodeOp i).toNat = some i

theorem reset : Statement .reset := ⟨rfl, rfl, rfl⟩

theorem sleepIn : Statement .sleepIn := ⟨rfl, rfl, rfl⟩

theorem sleepOut : Statement .sleepOut := ⟨rfl, rfl, rfl⟩

theorem invertOff : Statement .invertOff := ⟨rfl, rfl, rfl⟩

theorem invertOn : Statement .invertOn := ⟨rfl, rfl, rfl⟩

theorem setGamma : Statement .setGamma := ⟨rfl, rfl, rfl⟩

theorem displayOff : Statement .displayOff := ⟨rfl, rfl, rfl⟩

theorem displayOn : Statement .displayOn := ⟨rfl, rfl, rfl⟩

theorem setColumnRange : Statement .setColumnRange := ⟨rfl, rfl, rfl⟩

theorem setRowRange : Statement .setRowRange := ⟨rfl, rfl, rfl⟩

theorem writeMemory : Statement .writeMemory := ⟨rfl, rfl, rfl⟩

theorem setPalette : Statement .setPalette := ⟨rfl, rfl, rfl⟩

theorem tearingEffectOff : Statement .tearingEffectOff := ⟨rfl, rfl, rfl⟩

theorem tearingEffectOn : Statement .tearingEffectOn := ⟨rfl, rfl, rfl⟩

theorem setAddressMode : Statement .setAddressMode := ⟨rfl, rfl, rfl⟩

theorem setColorMode : Statement .setColorMode := ⟨rfl, rfl, rfl⟩

theorem openInit : Statement .openInit := ⟨rfl, rfl, rfl⟩

theorem resample : Statement .resample := ⟨rfl, rfl, rfl⟩

theorem play : Statement .play := ⟨rfl, rfl, rfl⟩

theorem stop : Statement .stop := ⟨rfl, rfl, rfl⟩

theorem close : Statement .close := ⟨rfl, rfl, rfl⟩

end Sys2Proof.Laws.DecodeEncode
end

