-- ==== Sys2Proof/Laws/Raster.lean ====
section
/-! SUPPORT. SCALER and PACKER: the production constants, addresses of FB, one stored pixel, the order of pixels. -/

namespace Sys2Proof

theorem Config.IsProduction.panelW {c : Config} (h : c.IsProduction) : c.panelW = 128 := congrArg Config.panelW h

theorem Config.IsProduction.panelH {c : Config} (h : c.IsProduction) : c.panelH = 160 := congrArg Config.panelH h

theorem Config.IsProduction.cropTop {c : Config} (h : c.IsProduction) : c.cropTop = 0 := congrArg Config.cropTop h

theorem Config.IsProduction.cropLeft {c : Config} (h : c.IsProduction) : c.cropLeft = 33 :=
  congrArg Config.cropLeft h

theorem Config.IsProduction.cropH {c : Config} (h : c.IsProduction) : c.cropH = 300 := congrArg Config.cropH h

theorem Config.IsProduction.cropW {c : Config} (h : c.IsProduction) : c.cropW = 375 := congrArg Config.cropW h

theorem Config.IsProduction.dcCommandLevel {c : Config} (h : c.IsProduction) : c.dcCommandLevel = false :=
  congrArg Config.dcCommandLevel h

theorem Config.IsProduction.addrBit {c : Config} (h : c.IsProduction) : c.addrBit = AddrBits.default :=
  congrArg Config.addrBit h

/-- `FRAME_BYTES = 61440` in production (44_streamer.md R213). -/
theorem Config.IsProduction.frameBytes {c : Config} (h : c.IsProduction) : c.frameBytes = 61440 := by
  simp only [Config.frameBytes, h.panelW, h.panelH]

/-- Every production configuration is well formed, whatever the open parameters (00_scope.md R8). -/
theorem Config.wf_production (gamma : GammaTable) (srcCap fbCap : Nat) :
    (Config.production gamma srcCap fbCap).wf = true := rfl

namespace Machine

/-- `D = 20193` in production (42_scaler.md R179). -/
theorem den_production {c : Config} (h : c.IsProduction) : den c = 20193 := by
  simp only [den, dX, dY, h.panelW, h.panelH]

theorem dX_pos {c : Config} (h : c.wf = true) : 0 < dX c := by
  have := Config.wf_bounds h
  unfold dX
  omega

theorem dY_pos {c : Config} (h : c.wf = true) : 0 < dY c := by
  have := Config.wf_bounds h
  unfold dY
  omega

theorem den_pos {c : Config} (h : c.wf = true) : 0 < den c := Nat.mul_pos (dX_pos h) (dY_pos h)

theorem clampIndex_lt {i n : Nat} (h : 1 ≤ n) : clampIndex i n < n := by
  unfold clampIndex
  omega

/-- An address of FB as slot base, pixel and channel (20_memory.md R63). -/
theorem fbAddr_eq (c : Config) (f r col ch : Nat) :
    fbAddr c f r col ch = f * c.frameBytes + 3 * (r * c.panelW + col) + ch := by
  unfold fbAddr Config.frameBytes
  ring

/-- The stored pixel reads back, channel by channel (43_packer.md R193). -/
theorem readByte_storePixel (s : State) (r col : Nat) {ch : Nat} (h : ch < 3) :
    (s.storePixel r col).readByte .fb (fbAddr s.cfg s.regs.argSlot.toNat r col ch) =
      pixelByte s.cfg s.regs (s.readByte .src) r col ch := by
  have e : fbAddr s.cfg s.regs.argSlot.toNat r col ch = fbAddr s.cfg s.regs.argSlot.toNat r col 0 + ch := rfl
  unfold State.storePixel
  dsimp only
  rw [e]
  interval_cases ch
  · rw [State.readByte_writeByte_other _ _ _ _ _ (by omega), State.readByte_writeByte_other _ _ _ _ _ (by omega),
      Nat.add_zero, State.readByte_writeByte_self]
  · rw [State.readByte_writeByte_other _ _ _ _ _ (by omega), State.readByte_writeByte_self]
  · rw [State.readByte_writeByte_self]

/-- Every other byte of FB stays. -/
theorem readByte_storePixel_other (s : State) (r col a : Nat)
    (h : a < fbAddr s.cfg s.regs.argSlot.toNat r col 0 ∨ fbAddr s.cfg s.regs.argSlot.toNat r col 2 < a) :
    (s.storePixel r col).readByte .fb a = s.readByte .fb a := by
  have e : fbAddr s.cfg s.regs.argSlot.toNat r col 2 = fbAddr s.cfg s.regs.argSlot.toNat r col 0 + 2 := rfl
  unfold State.storePixel
  dsimp only
  rw [State.readByte_writeByte_other _ _ _ _ _ (by omega), State.readByte_writeByte_other _ _ _ _ _ (by omega),
    State.readByte_writeByte_other _ _ _ _ _ (by omega)]

/-- A pixel's store changes the field `fb` and nothing else. -/
theorem storePixel_eq (s : State) (r col : Nat) : s.storePixel r col = { s with fb := (s.storePixel r col).fb } := rfl

/-- The next pixel is the next index of the raster (42_scaler.md R170). -/
theorem nextPixel_some {c : Config} {r col r' col' : Nat} (h : nextPixel c r col = some (r', col'))
    (hr : r < c.panelH) (hw : 0 < c.panelW) :
    r' < c.panelH ∧ col' < c.panelW ∧ (col < c.panelW → r' * c.panelW + col' = r * c.panelW + col + 1) := by
  unfold nextPixel at h
  split_ifs at h with h1 h2
  · simp only [Option.some.injEq, Prod.mk.injEq] at h
    obtain ⟨rfl, rfl⟩ := h
    exact ⟨hr, h1, fun _ => by ring⟩
  · simp only [Option.some.injEq, Prod.mk.injEq] at h
    obtain ⟨rfl, rfl⟩ := h
    exact ⟨h2, hw, fun _ => by rw [Nat.add_mul]; omega⟩

/-- There is no next pixel exactly after the last one. -/
theorem nextPixel_none {c : Config} {r col : Nat} (h : nextPixel c r col = none) (hr : r < c.panelH)
    (hc : col < c.panelW) : r + 1 = c.panelH ∧ col + 1 = c.panelW := by
  unfold nextPixel at h
  split_ifs at h with h1 h2
  omega

end Machine

end Sys2Proof
end

