-- ==== Sys2Proof/Laws/Streamer.lean ====
section
/-! SUPPORT. The initialisation table run from any of its steps, and the deadline of a frame. -/

namespace Sys2Proof.Machine

/-- The table's primitives, step after step, are the 29 events written out in `initTrace` (44_streamer.md R204). -/
theorem initTrace_eq (c : Config) : (List.range' 0 15).flatMap (initEvents c) = initTrace c := by
  have h9 : initEvents c 9 = opcodeCalls c 0x36 ++ dataCalls c [0x00] := by
    show commandEvents c _ = _
    have : addressByte c.addrBit AddressFlags.none = 0 := by simp [addressByte, AddressFlags.none, flagBit]
    simp [commandEvents, encode, validCommand, groupsOf, paramBytes, this, emission, opcodeCalls, dataCalls,
      levelOf, opcodeOf]
  simp only [List.range', List.flatMap_cons, List.flatMap_nil, h9]
  rfl

@[simp] theorem initTrace_length (c : Config) : (initTrace c).length = 29 := rfl

/-- The effects of calls do not look at the position either. -/
theorem effects_frame_seq (l : List Event) (s : State) (q : Seq) (t d : List Event) (f : Option Nat) (e : Env)
    (c : List Turn) :
    effects l { s with seq := q, trace := t, todo := d, inFlight := f, env := e, script := c } =
      { effects l s with seq := q, trace := t, todo := d, inFlight := f, env := e, script := c } := by
  induction l generalizing s with
  | nil => rfl
  | cons p l ih =>
    rw [effects_cons, effects_cons]
    have : primEffect p { s with seq := q, trace := t, todo := d, inFlight := f, env := e, script := c } =
        { primEffect p s with seq := q, trace := t, todo := d, inFlight := f, env := e, script := c } := by
      cases p with
      | level l v => cases l <;> rfl
      | _ => rfl
    rw [this, ih]

/-- What the whole table leaves: the transport open, both lines driven (10_state.md R45). -/
theorem effects_init (c : Config) (s : State) :
    effects (initTrace c) s = { s with tpOpen := true, linesOut := true, dc := c.dcCommandLevel, rst := true } := by
  simp [initTrace, opcodeCalls, dataCalls, primEffect]

theorem effects_keep (l : List Event) (s : State) :
    (effects l s).busy = s.busy ∧ (effects l s).seq = s.seq ∧ (effects l s).cfg = s.cfg := by
  induction l generalizing s with
  | nil => exact ⟨rfl, rfl, rfl⟩
  | cons p l ih =>
    rw [effects_cons]
    have := ih (primEffect p s)
    cases p with
    | level l v => cases l <;> exact this
    | _ => exact this

/-- Two positions in a row, called whole, are one list of calls. -/
theorem calledAll_enter (a b : List Event) (e1 e : Env) (c1 c : List Turn) (s : State) (q r : Seq) :
    { (State.enter q (s.calledAll a e1 c1)).calledAll b e c with seq := r } =
      { s.calledAll (a ++ b) e c with seq := r } := by
  have h : effects b (State.enter q (s.calledAll a e1 c1)) =
      { effects b (effects a s) with
        seq := q, trace := s.trace ++ a, todo := eventsAt (s.calledAll a e1 c1) q, inFlight := none, env := e1,
        script := c1 } :=
    effects_frame_seq b (effects a s) q _ _ none e1 c1
  unfold State.calledAll
  unfold State.calledAll at h
  rw [h, effects_append]
  simp

/-- The initialisation table from step `k` on, for either of the two operations that run it: `mk` is the position of
a step, `fin` what follows the last one. -/
theorem runs_init (mk : Nat → Seq) (fin : State → State) (hev : ∀ s k, eventsAt s (mk k) = initEvents s.cfg k)
    (hap : ∀ s k, s.seq = mk k → s.afterPosition = if k < lastInitStep then s.enter (mk (k + 1)) else fin s) :
    ∀ (m k : Nat) (s : State) (l : List Event), k + m = 14 →
      l = (List.range' k (m + 1)).flatMap (initEvents s.cfg) → s.busy = true → s.seq = mk k →
      s.todo = initEvents s.cfg k → s.inFlight = none → s.undisturbed l.length = true →
      s.env.answersOk l.length = true →
      ∃ e : Env, earliest s.env.nowNs l ≤ e.nowNs ∧
        (∀ j, s.env.answersOk (l.length + j) = true → e.answersOk j = true) ∧
        Runs l.length s (fin { s.calledAll l e (s.script.drop l.length) with seq := mk 14 }) := by
  intro m
  induction m with
  | zero =>
    intro k s l hk hl hb hs ht hf hu ha
    obtain rfl : k = 14 := by omega
    simp only [Nat.zero_add, List.range'_one, List.flatMap_cons, List.flatMap_nil, List.append_nil] at hl
    subst hl
    obtain ⟨e, h1, h2, h3⟩ := runs_calls _ s (initEvents_ne_nil s.cfg (by simp [lastInitStep])) hb ht hf hu ha
    refine ⟨e, h1, h2, ?_⟩
    rw [hap _ 14 (by simp [State.calledAll, effects_keep, hs])] at h3
    simp only [lastInitStep, lt_irrefl, if_false] at h3
    convert h3 using 2
    simp [State.calledAll, effects_keep, hs]
  | succ m ih =>
    intro k s l hk hl hb hs ht hf hu ha
    have hr : l = initEvents s.cfg k ++ (List.range' (k + 1) (m + 1)).flatMap (initEvents s.cfg) := by
      rw [hl, List.range'_succ, List.flatMap_cons]
    clear hl
    generalize hl2 : (List.range' (k + 1) (m + 1)).flatMap (initEvents s.cfg) = l2 at hr
    subst hr
    rw [List.length_append] at hu ha
    obtain ⟨e1, h1, h2, h3⟩ := runs_calls _ s (initEvents_ne_nil s.cfg (by simp [lastInitStep]; omega)) hb ht hf
      (undisturbed_mono (by omega) hu) (answersOk_mono (by omega) ha)
    rw [hap _ k (by simp [State.calledAll, effects_keep, hs]), if_pos (by simp [lastInitStep]; omega)] at h3
    generalize hs1 : State.enter (mk (k + 1))
      (State.calledAll (initEvents s.cfg k) e1 (List.drop (initEvents s.cfg k).length s.script) s) = s1 at h3
    have hcfg : s1.cfg = s.cfg := by rw [← hs1]; simp [State.calledAll, effects_keep]
    have henv : s1.env = e1 := by rw [← hs1]; rfl
    obtain ⟨e, g1, g2, g3⟩ := ih (k + 1) s1 l2 (by omega) (by rw [hcfg, hl2])
      (by rw [← hs1]; simp [State.calledAll, effects_keep, hb]) (by rw [← hs1]; rfl)
      (by rw [← hs1]; simp [hev]) (by rw [← hs1]; rfl)
      (undisturbed_drop hu (by rw [← hs1]; rfl)) (by rw [henv]; exact h2 _ ha)
    rw [henv] at g1 g2
    refine ⟨e, ?_, ?_, ?_⟩
    · rw [earliest_append]; exact le_trans (earliest_mono _ h1) g1
    · intro j hj
      apply g2
      apply h2
      rw [List.length_append, Nat.add_assoc] at hj
      exact hj
    · rw [List.length_append]
      have := h3.trans g3
      convert this using 2
      rw [← hs1, ← List.drop_drop]
      exact (calledAll_enter _ _ _ _ _ _ _ _ _).symm

/-- The loop over an empty buffer stays where the initialisation table ended (44_streamer.md R215). -/
theorem toFrames_empty {s : State} (h : s.nFrames = 0) : s.toFrames = s.setTodo [] := if_pos h

/-- The loop over the frames starts before frame 0 (44_streamer.md R211). -/
theorem toFrames_first {s : State} (h : s.nFrames ≠ 0) : s.toFrames = s.toBoundary 0 := if_neg h

/-- The nanoseconds of the deadline always fit their register (10_state.md R26). -/
theorem advanceDeadline_fits (sec nsec p : Nat) (h : nsec < 2 ^ 30) : (advanceDeadline sec nsec p).2 < 2 ^ 30 := by
  unfold advanceDeadline
  dsimp only
  split <;> simp <;> omega

end Sys2Proof.Machine
end

