-- ==== Sys2Proof/Tests/Slice0.lean ====
section
/-! SUPPORT. The model's own tests, and a witness for the hypotheses of every statement that has some.

Expected values come from spec/95_test_vectors.md (vector names E.., X.., V.., Q.., T.. in the comments), from the
encoding tables of 30_encoding.md, or are worked by hand from the rule named. -/

namespace Sys2Proof.Tests

open Sys2Proof Sys2Proof.Machine

/-! ### Small states -/

/-- The `Config` "Tiny" of 95_test_vectors.md, with small memories and distinct gamma codes. -/
def tiny : Config where
  panelW := 3
  panelH := 4
  cropTop := 0
  cropLeft := 1
  cropH := 2
  cropW := 3
  spiHz := 15000000
  spiMode := 0
  tRstLowMs := 10
  tRstWaitMs := 120
  tSwresetWaitMs := 120
  dcCommandLevel := false
  addrBit := AddrBits.default
  gamma := { g10 := 0xA1, g18 := 0xA2, g22 := 0xA3, g25 := 0xA4 }
  srcCap := 64
  fbCap := 72

/-- A production configuration with some values of the open parameters. -/
def production : Config := Config.production tiny.gamma 489600 122880

/-- State CLOSED (60_exceptions.md R252). -/
def closed : State := { State.reset with cfg := tiny }

/-- State OPEN. -/
def opened : State := { closed with tpOpen := true, linesOut := true, rst := true }

/-- State HALTED after an IOError. -/
def halted : State := { closed with err := 3, errOp := 0x11 }

/-- A panel command, `sleepOut`, about to make its first call. -/
def inCommand : State := commandAccepted 0x11 [.level .dc false, .write [0x11]] opened

/-- PLAY at the frame boundary before frame `i` of two frames, reference time (7, 0), period 1000 ms. -/
def atBoundary (i : Nat) : State :=
  { opened with
    busy := true, seq := .playFrame i .col, runOp := 0xE2, nFrames := 2, periodLatched := 1000, dlSec := 7 }

/-- Latches set by hand. -/
def withRegs (l : Latches) (s : State) : State := { s with regs := l }

/-- The host's next move. -/
def withMove (m : HostMove) (s : State) : State := { s with script := [.host m] }

/-- The next state, if there is one. -/
def nextState : Host.Outcome State Fault Refusal → Option State
  | .next t => some t
  | .fault _ => none
  | .refused _ => none

/-- The calls a request leaves to be made. -/
def callsOf (o : Host.Outcome State Fault Refusal) : Option (List Event) := (nextState o).map (·.todo)

/-- `ERR`, `ERR_OP`, the call the teardown still has to make, and the trace after an error. -/
def errorOf (o : Host.Outcome State Fault Refusal) : Option (BitVec 3 × Byte × List Event × List Event) :=
  (nextState o).map (fun t => (t.err, t.errOp, t.todo, t.trace))

/-! ### Well-formedness: one ill-formed term for each check -/

theorem test_wf_tiny : tiny.wf = true := by decide

theorem test_wf_panelW_low : { tiny with panelW := 1 }.wf = false := by decide

theorem test_wf_panelH_low : { tiny with panelH := 1 }.wf = false := by decide

theorem test_wf_panelW_high : { tiny with panelW := 65537 }.wf = false := by decide

theorem test_wf_panelH_high : { tiny with panelH := 65537 }.wf = false := by decide

theorem test_wf_panel_bounds : { tiny with panelW := 65536, panelH := 65536 }.wf = true := by decide

theorem test_wf_cropW : { tiny with cropW := 0 }.wf = false := by decide

theorem test_wf_cropH : { tiny with cropH := 0 }.wf = false := by decide

theorem test_wf_addrBit_low : { AddrBits.default with rgbInverse := 1 }.wf = false := by decide

theorem test_wf_addrBit_high : { AddrBits.default with rowInverse := 8 }.wf = false := by decide

theorem test_wf_addrBit_twice : { AddrBits.default with rowInverse := 6 }.wf = false := by decide

theorem test_wf_addrBit_in_config :
    { tiny with addrBit := { AddrBits.default with rowInverse := 6 } }.wf = false := by decide

theorem test_wf_palette_red :
    (Command.setPalette (List.replicate 31 0) (List.replicate 64 0) (List.replicate 32 0)).wf = false := by decide

theorem test_wf_palette_green :
    (Command.setPalette (List.replicate 32 0) (List.replicate 65 0) (List.replicate 32 0)).wf = false := by decide

theorem test_wf_palette_blue :
    (Command.setPalette (List.replicate 32 0) (List.replicate 64 0) []).wf = false := by decide

/-! ### Encodings, written out from 30_encoding.md R98, R110 -/

theorem test_decode_plain : decodeOp 0b00100001 = .instr .invertOn := by decide

theorem test_decode_param : decodeOp 0b00101011 = .instr .setRowRange := by decide

theorem test_decode_block : decodeOp 0b11100010 = .instr .play := by decide

theorem test_decode_all :
    [0x01, 0x10, 0x11, 0x20, 0x21, 0x26, 0x28, 0x29, 0x2A, 0x2B, 0x2C, 0x2D, 0x34, 0x35, 0x36, 0x3A, 0xE0, 0xE1,
      0xE2, 0xE3, 0xE4].map decodeOp =
      [.instr .reset, .instr .sleepIn, .instr .sleepOut, .instr .invertOff, .instr .invertOn, .instr .setGamma,
        .instr .displayOff, .instr .displayOn, .instr .setColumnRange, .instr .setRowRange, .instr .writeMemory,
        .instr .setPalette, .instr .tearingEffectOff, .instr .tearingEffectOn, .instr .setAddressMode,
        .instr .setColorMode, .instr .openInit, .instr .resample, .instr .play, .instr .stop, .instr .close] := by
  decide

theorem test_decode_gap : decodeOp 0x3B = .rejected (.unknownCode 0x3B) := by decide

theorem test_tableWord_width : decodeTableWord 16 0x01 = none := by decide

/-- E24, production. -/
theorem test_encode_setRowRange :
    encode production (.setRowRange 0 159) =
      some [(.command, [0x2B]), (.data, [0x00, 0x00, 0x00, 0x9F])] := by decide

/-- E31: the 16-bit value is tested. -/
theorem test_encode_setColumnRange_256 : encode production (.setColumnRange 256 256) = none := by decide

/-- E27, the upper bound of the columns. -/
theorem test_encode_setColumnRange_128 : encode production (.setColumnRange 0 128) = none := by decide

/-- E48. -/
theorem test_encode_setAddressMode :
    encode production (.setAddressMode ⟨true, false, true, false, false, true⟩) =
      some [(.command, [0x36]), (.data, [0x94])] := by decide

/-- E44: the fourth flag stands above the third. -/
theorem test_encode_setAddressMode_swap :
    encode production (.setAddressMode ⟨false, false, false, true, false, false⟩) =
      some [(.command, [0x36]), (.data, [0x20])] := by decide

/-! ### The operations, one step each -/

/-- E1 -/
theorem test_reset : callsOf (exec .reset opened) = some [.level .dc false, .write [0x01]] := by decide

/-- E2 -/
theorem test_sleepIn : callsOf (exec .sleepIn opened) = some [.level .dc false, .write [0x10]] := by decide

/-- E3 -/
theorem test_sleepOut : callsOf (exec .sleepOut opened) = some [.level .dc false, .write [0x11]] := by decide

/-- E4 -/
theorem test_invertOff : callsOf (exec .invertOff opened) = some [.level .dc false, .write [0x20]] := by decide

/-- E5 -/
theorem test_invertOn : callsOf (exec .invertOn opened) = some [.level .dc false, .write [0x21]] := by decide

/-- E6 -/
theorem test_displayOff : callsOf (exec .displayOff opened) = some [.level .dc false, .write [0x28]] := by decide

/-- E7 -/
theorem test_displayOn : callsOf (exec .displayOn opened) = some [.level .dc false, .write [0x29]] := by decide

/-- E8 -/
theorem test_tearingEffectOff :
    callsOf (exec .tearingEffectOff opened) = some [.level .dc false, .write [0x34]] := by decide

/-- E9 -/
theorem test_tearingEffectOn :
    callsOf (exec .tearingEffectOn opened) = some [.level .dc false, .write [0x35]] := by decide

/-- E12 -/
theorem test_setGamma : callsOf (exec .setGamma (withRegs { Latches.reset with argCurve := 22 } opened)) =
    some [.level .dc false, .write [0x26], .level .dc true, .write [0xA3]] := by decide

/-- X4: validation before the transport check. -/
theorem test_setGamma_invalid : errorOf (exec .setGamma (withRegs { Latches.reset with argCurve := 20 } closed)) =
    some (2, 0x26, [], []) := by decide

/-- 95_test_vectors.md 2.3, Tiny. -/
theorem test_setColumnRange : callsOf (exec .setColumnRange (withRegs { Latches.reset with argEnd := 2 } opened)) =
    some [.level .dc false, .write [0x2A], .level .dc true, .write [0x00, 0x00, 0x00, 0x02]] := by decide

/-- X1: `Close` is the only call to come. -/
theorem test_setColumnRange_invalid :
    errorOf (exec .setColumnRange (withRegs { Latches.reset with argBegin := 5, argEnd := 3 } opened)) =
      some (2, 0x2A, [.closeCh], []) := by decide

/-- 95_test_vectors.md 2.3, Tiny. -/
theorem test_setRowRange : callsOf (exec .setRowRange (withRegs { Latches.reset with argEnd := 3 } opened)) =
    some [.level .dc false, .write [0x2B], .level .dc true, .write [0x00, 0x00, 0x00, 0x03]] := by decide

/-- R242 row 13. -/
theorem test_setRowRange_closed : errorOf (exec .setRowRange (withRegs { Latches.reset with argEnd := 3 } closed)) =
    some (3, 0x2B, [], []) := by decide

/-- E50 -/
theorem test_writeMemory : callsOf (exec .writeMemory
    (withRegs { Latches.reset with argLen := 3 } { opened with fb := [(0, 0xFC), (1, 0x00), (2, 0x80)] })) =
      some [.level .dc false, .write [0x2C], .level .dc true, .write [0xFC, 0x00, 0x80]] := by decide

/-- E54: the bound holds with equality. -/
theorem test_writeMemory_empty : callsOf (exec .writeMemory (withRegs { Latches.reset with argAddr := 72 } opened)) =
    some [.level .dc false, .write [0x2C]] := by decide

/-- The first byte of each palette array. -/
def paletteHeads : Command → List (Option Byte)
  | .setPalette r g b => [r.head?, g.head?, b.head?]
  | _ => []

/-- R155: red starts at PAL[0], green at PAL[32], blue at PAL[96]. -/
theorem test_setPalette :
    paletteHeads { opened with pal := [(0, 1), (32, 2), (96, 3)] }.paletteCommand = [some 1, some 2, some 3] := by
  decide

/-- E61: found although it is the last byte. -/
theorem test_setPalette_invalid :
    encode tiny (.setPalette (List.replicate 32 0) (List.replicate 64 0) (List.replicate 31 0 ++ [0x40])) = none := by
  decide

/-- E43 through the latch: `rowColumnSwap` is bit 3 of ARG_FLAGS (10_state.md R23) and bit 4 on the wire. -/
theorem test_setAddressMode :
    callsOf (exec .setAddressMode (withRegs { Latches.reset with argFlags := 0b001000 } opened)) =
      some [.level .dc false, .write [0x36], .level .dc true, .write [0x10]] := by decide

/-- E17 -/
theorem test_setColorMode : callsOf (exec .setColorMode (withRegs { Latches.reset with argBpp := 16 } opened)) =
    some [.level .dc false, .write [0x3A], .level .dc true, .write [0x05]] := by decide

/-- E19: a code is no input. -/
theorem test_setColorMode_invalid : errorOf (exec .setColorMode (withRegs { Latches.reset with argBpp := 6 } opened)) =
    some (2, 0x3A, [.closeCh], []) := by decide

/-- P1, first event. -/
theorem test_openInit : callsOf (exec .openInit closed) = some [.openCh 15000000 0] := by decide

/-- X6 -/
theorem test_openInit_open : errorOf (exec .openInit opened) = some (1, 0xE0, [.closeCh], []) := by decide

/-- X13: the transport fails to open; it is not closed. -/
theorem test_openInit_fails :
    errorOf (step { closed with
      busy := true, runOp := 0xE0, seq := .init 0, todo := [.openCh 15000000 0],
      env := { replies := [], rest := { kind := .fail 0, dtNs := 0 }, nowNs := 0 } }) =
      some (3, 0xE0, [], [.openCh 15000000 0]) := by decide

/-- The source frame of 95_test_vectors.md 4.3. -/
def tinySource : Memory :=
  (List.range 36).zip [0x01, 0x02, 0x03, 0xFF, 0x0A, 0x14, 0x1E, 0xFF, 0x64, 0x6E, 0x78, 0x00] ++
    ((List.range 36).drop 12).zip [0xFF, 0xFE, 0xFD, 0x07, 0xEE, 0xEE, 0x05, 0x06, 0x07, 0xFF, 0x28, 0x32] ++
    ((List.range 36).drop 24).zip [0x3C, 0xFF, 0xC8, 0xD2, 0xDC, 0x09, 0x00, 0x80, 0xFF, 0x01, 0xEE, 0xEE]

/-- RESAMPLE of that frame into slot 1, before pixel `(r, c)`. -/
def resampling (r c : Nat) : State :=
  { closed with
    src := tinySource, busy := true, runOp := 0xE1, seq := .resample r c,
    regs := { Latches.reset with argSlot := 1, srcH := 2, srcW := 4, srcPitch := 18 } }

/-- 95_test_vectors.md 4.3, pixel (1, 1), in the second slot: three bytes, the next pixel, the datapath of blue. -/
theorem test_resample_pixel : (nextState (step (resampling 1 1))).map (fun t => (t.fb, t.seq, t.dp.n, t.dp.q)) =
    some ([(48, 0x80), (49, 0x74), (50, 0x6C)], .resample 1 2, 650, 27) := by decide

/-- 95_test_vectors.md 4.3, the last pixel, with the tie's neighbour: the operation ends. -/
theorem test_resample_last : (nextState (step (resampling 3 2))).map (fun t => (t.fb, t.seq, t.busy)) =
    some ([(69, 0xFC), (70, 0x80), (71, 0x00)], .idle, false) := by decide

/-- X11 -/
theorem test_resample_invalid : errorOf (exec .resample closed) = some (2, 0xE1, [], []) := by decide

/-- X8: the period is checked first. -/
theorem test_play_period : errorOf (step { closed with
    busy := true, runOp := 0xE2, seq := .playCheck, regs := { Latches.reset with fbLen := 37 } }) =
      some (1, 0xE2, [], []) := by decide

/-- The deadline of a frame, T10: (7, 0) and 1000 ms give (8, 0), and the sleep until it comes next. -/
theorem test_play_advance : callsOf (step { atBoundary 0 with seq := .playFrame 0 .advance }) =
    some [.sleepUntil 8 0] := by decide

/-- After a frame's sleep `frame_idx` and `seq` move together, here back to frame 0 (10_state.md R26). -/
theorem test_play_next_frame : (nextState (step { atBoundary 1 with
    frameIdx := 1, seq := .playFrame 1 .sleep, todo := [.sleepUntil 7 0] })).map (fun t => (t.seq, t.frameIdx)) =
      some (.playFrame 0 .col, 0) := by decide

/-- Over an empty buffer PLAY does not leave PLAY_INIT(14) (44_streamer.md R211, R215). -/
theorem test_play_empty : (nextState (step { atBoundary 0 with
    nFrames := 0, seq := .playInit 14, todo := [.write [0x29]] })).map (fun t => (t.seq, t.todo, t.busy)) =
      some (.playInit 14, [], true) := by decide

/-- STOP while PLAY runs is latched. -/
theorem test_stop_play : (nextState (exec .stop (atBoundary 1))).map (·.stopReq) = some true := by decide

/-- STOP outside PLAY has no effect, also not on a held request. -/
theorem test_stop_command : nextState (exec .stop inCommand) = some inCommand := by decide

/-- CLOSE calls `tp.close()` in a step of its own; a failure is swallowed (10_state.md R45). -/
theorem test_close : callsOf (exec .close opened) = some [.closeCh] := by decide

/-- Error entry with the transport open: after its teardown the block is HALTED (X5, end state). -/
theorem test_teardown : (nextState (step { opened with
    busy := true, err := 1, seq := .teardown, todo := [.closeCh],
    env := { replies := [], rest := { kind := .fail 0, dtNs := 0 }, nowNs := 0 } })).map
      (fun t => (t.trace, t.tpOpen, t.seq, t.opState)) = some ([.closeCh], false, .idle, .halted) := by decide

/-- X15 -/
theorem test_close_halted : nextState (exec .close halted) = some halted := by decide

/-- X5 -/
theorem test_unknown_code : errorOf (step (withMove (.writeReg 0x1F 0x00) opened)) =
    some (1, 0x00, [.closeCh], []) := by decide

/-- A write that fails moved the bytes the environment says (93_implementation_defined.md U5). -/
theorem test_write_fails : (nextState (step { opened with
    busy := true, runOp := 0x2A, seq := .cmd, todo := [.write [0, 0, 0, 2]],
    env := { replies := [{ kind := .fail 3, dtNs := 5 }], rest := { kind := .ok, dtNs := 0 }, nowNs := 0 } })).map
      (fun t => (t.err, t.trace, t.partialWrite, t.env.nowNs)) =
    some (3, [.write [0, 0, 0, 2]], some [0, 0, 0], 5) := by decide

/-- A pause returns with the clock at least its duration on (44_streamer.md R207). -/
theorem test_pause : (nextState (step { opened with busy := true, seq := .init 3, todo := [.pause 10] })).map
    (fun t => (t.env.nowNs, t.seq)) = some (10000000, .init 4) := by decide

/-! ### SCALER and PACKER vectors -/

/-- The pixel pattern of 95_test_vectors.md 4.1 over a frame with rows of 1632 bytes. -/
def pattern (a : Nat) : Byte :=
  let x := a % 1632 / 4
  let y := a / 1632
  BitVec.ofNat 8 (if a % 4 = 0 then x else if a % 4 = 1 then y else x + y)

/-- The latches of that frame. -/
def patternRegs : Latches := { Latches.reset with srcH := 300, srcW := 408, srcPitch := 1632 }

/-- V5 -/
theorem test_interp_V5 : (interp production patternRegs pattern 53 100 0, interp production patternRegs pattern 53 100 1,
    interp production patternRegs pattern 53 100 2) = (2768455, 4754100, 3183763) := by decide

/-- V8: the clamp at the far corner. -/
theorem test_pixel_V8 : (List.range 3).map (pixelByte production patternRegs pattern 159 127) = [192, 44, 148] := by
  decide

/-- Q12, Q13, Q18 (the tie). -/
theorem test_quant : (quant 252 1, quant 253 1, quant 765 6) = (62, 63, 32) := by decide

/-- V8, last column -/
theorem test_fbAddr : fbAddr production 0 159 127 0 = 61437 := by decide

/-- T11, first two; T12; T13. -/
theorem test_advance :
    (advanceDeadline 5 900000000 250, advanceDeadline 6 150000000 250, advanceDeadline 100 999999999 1001,
      advanceDeadline 0 999000000 4294967295) =
      ((6, 150000000), (6, 400000000), (102, 999999), (4294968, 294000000)) := by decide

/-! ### The host port and memory -/

/-- A busy-locked latch (10_state.md R33). -/
theorem test_latch_locked : (nextState (step (withMove (.writeReg 0x05 9) inCommand))).map (·.regs.argAddr) = some 0 := by
  decide

/-- STATUS of state OPEN with RST high: bits 1 and 5 (10_state.md R28). -/
theorem test_status : (nextState (step (withMove (.readReg 0x10) opened))).map (·.rdata) = some 0x22 := by decide

theorem test_store_canonical :
    Memory.store (Memory.store (Memory.store [] 5 1) 2 9) 5 7 = [(2, 9), (5, 7)] := by decide

theorem test_memory_wf : (Memory.wf [(2, 9), (5, 7)], Memory.wf [(5, 7), (2, 9)], Memory.wf [(5, 7), (5, 7)]) =
    (true, false, false) := by decide

/-- A host write outside FB. -/
theorem test_host_write_outside :
    step (withMove (.writeMem .fb 72 0) closed) = .fault (.hostAddress .fb 72) := by rfl

/-- A host memory write while an operation runs is no move of the model (70_reset_and_hazards.md R275). -/
theorem test_host_write_busy : step (withMove (.writeMem .fb 0 0) inCommand) = .refused .hostWriteWhileBusy := by rfl

/-! ### Traces -/

/-- The order of steps 1 and 2 of the initialisation table is not observable (44_streamer.md R205); a byte between them
is. -/
theorem test_panel_order :
    PanelEquivalent [.level .dc false, .level .rst false] [.level .rst false, .level .dc false] ∧
      ¬ PanelEquivalent [.level .dc false, .write [1], .level .rst false] [.level .rst false, .level .dc false,
        .write [1]] := by decide

/-- A level the line already has is no change; the mode of a byte shows (10_state.md R46). -/
theorem test_panel_level :
    PanelEquivalent [.level .dc true, .level .dc true, .write [1]] [.level .dc true, .write [1]] ∧
      ¬ PanelEquivalent [.level .dc true, .write [1]] [.level .dc false, .write [1]] := by decide

/-! ### Witnesses: states and operands that meet the hypotheses of the statements, clause by clause -/

theorem witness_WireEncodingRoundTrip : tiny.wf = true ∧
    [tiny.gamma.g10, tiny.gamma.g18, tiny.gamma.g22, tiny.gamma.g25].Nodup ∧
    (Command.setRowRange 3 3).wf = true ∧
    encode tiny (.setRowRange 3 3) = some [(.command, [0x2B]), (.data, [0, 3, 0, 3])] := by decide

theorem witness_AddressByteHasEachFlagAtItsBit :
    AddrBits.default.wf = true ∧ { AddrBits.default with rowInverse := 2, rgbInverse := 7 }.wf = true := by decide

theorem witness_ResetInputLeavesTheResetState :
    (withMove .assertReset inCommand).script = .host .assertReset :: [] := rfl

theorem witness_StepRunsDecodedRequest :
    (withMove (.writeReg 0x1F 0x1E4) opened).script = .host (.writeReg 0x1F 0x1E4) :: [] ∧
      decodeOp ((0x1E4 : Word).setWidth 8) = .instr .close ∧ 0xE4 < 256 ∧ decodeTableWord 8 0xE4 = some .close := by
  decide

theorem witness_UnknownCodeRaisesUsageError :
    (withMove (.writeReg 0x1F 0xFF) opened).script = .host (.writeReg 0x1F 0xFF) :: [] ∧
      decodeOp ((0xFF : Word).setWidth 8) = .rejected (.unknownCode 0xFF) ∧
      Ready (withMove (.writeReg 0x1F 0xFF) opened) := ⟨rfl, rfl, rfl, rfl, rfl⟩

/-- The same request while busy, and while halted. -/
theorem witness_UnknownCodeRaisesUsageError_held :
    (withMove (.writeReg 0x1F 0xFF) inCommand).busy = true ∧ (withMove (.writeReg 0x1F 0xFF) inCommand).err = 0 ∧
      (withMove (.writeReg 0x1F 0xFF) halted).err ≠ 0 := by decide

theorem witness_BusyHoldsRequests : Instr.close ≠ .stop ∧ inCommand.busy = true ∧ inCommand.err = 0 := by decide

theorem witness_HeldRequestStartsWhenIdle :
    { opened with held := [0xE4, 0x11] }.busy = false ∧ { opened with held := [0xE4, 0x11] }.err = 0 ∧
      { opened with held := [0xE4, 0x11] }.held = 0xE4 :: [0x11] ∧ decodeOp 0xE4 = .instr .close ∧
      { opened with held := [0xE4, 0x11] }.undisturbed 1 = true := by decide

theorem witness_HaltedTakesNoRequest : halted.err ≠ 0 := by decide

theorem fair_opened : FairFor 4 opened := ⟨⟨rfl, rfl, rfl⟩, rfl, rfl⟩

theorem witness_PlainCommandsSendTheirOpcode_open :
    (Instr.tearingEffectOn, (0x35 : Byte)) ∈ [(Instr.reset, (0x01 : Byte)), (.sleepIn, 0x10), (.sleepOut, 0x11),
      (.invertOff, 0x20), (.invertOn, 0x21), (.displayOff, 0x28), (.displayOn, 0x29), (.tearingEffectOff, 0x34),
      (.tearingEffectOn, 0x35)] ∧ Ready opened ∧ opened.tpOpen = true ∧ FairFor 2 opened :=
  ⟨by decide, ⟨rfl, rfl, rfl⟩, rfl, ⟨rfl, rfl, rfl⟩, rfl, rfl⟩

theorem witness_PlainCommandsSendTheirOpcode_closed : Ready closed ∧ closed.tpOpen = false := ⟨⟨rfl, rfl, rfl⟩, rfl⟩

/-- The four curves, with the transport open and closed. -/
theorem witness_SetGammaSendsTheCurveCode : ∀ curve ∈ [(10 : Byte), 18, 22, 25],
    Ready (withRegs { Latches.reset with argCurve := curve } opened) ∧
      FairFor 4 (withRegs { Latches.reset with argCurve := curve } opened) ∧
      Ready (withRegs { Latches.reset with argCurve := curve } closed) ∧
      (withRegs { Latches.reset with argCurve := curve } closed).tpOpen = false := by
  intro curve _
  exact ⟨⟨rfl, rfl, rfl⟩, ⟨⟨rfl, rfl, rfl⟩, rfl, rfl⟩, ⟨rfl, rfl, rfl⟩, rfl⟩

theorem witness_SetGammaSendsTheCurveCode_invalid :
    Ready (withRegs { Latches.reset with argCurve := 11 } closed) ∧ (11 : Byte) ≠ 10 ∧ (11 : Byte) ≠ 18 ∧
      (11 : Byte) ≠ 22 ∧ (11 : Byte) ≠ 25 := ⟨⟨rfl, rfl, rfl⟩, by decide⟩

/-- The last column, alone. -/
theorem witness_SetColumnRangeSendsTheRange :
    Ready (withRegs { Latches.reset with argBegin := 2, argEnd := 2 } opened) ∧
      (2 : Half).toNat ≤ tiny.panelW - 1 ∧ (2 : Half).toNat ≤ (2 : Half).toNat ∧
      FairFor 4 (withRegs { Latches.reset with argBegin := 2, argEnd := 2 } opened) :=
  ⟨⟨rfl, rfl, rfl⟩, by decide, by decide, ⟨rfl, rfl, rfl⟩, rfl, rfl⟩

/-- One above the last column; and an empty range. -/
theorem witness_SetColumnRangeSendsTheRange_invalid :
    Ready (withRegs { Latches.reset with argEnd := 3 } opened) ∧ tiny.panelW - 1 < (3 : Half).toNat ∧
      Ready (withRegs { Latches.reset with argBegin := 1 } opened) ∧ (0 : Half).toNat < (1 : Half).toNat :=
  ⟨⟨rfl, rfl, rfl⟩, by decide, ⟨rfl, rfl, rfl⟩, by decide⟩

theorem witness_SetRowRangeSendsTheRange :
    Ready (withRegs { Latches.reset with argBegin := 3, argEnd := 3 } opened) ∧
      (3 : Half).toNat ≤ tiny.panelH - 1 ∧ (3 : Half).toNat ≤ (3 : Half).toNat ∧
      FairFor 4 (withRegs { Latches.reset with argBegin := 3, argEnd := 3 } opened) :=
  ⟨⟨rfl, rfl, rfl⟩, by decide, by decide, ⟨rfl, rfl, rfl⟩, rfl, rfl⟩

theorem witness_SetRowRangeSendsTheRange_invalid :
    Ready (withRegs { Latches.reset with argEnd := 4 } opened) ∧ tiny.panelH - 1 < (4 : Half).toNat ∧
      Ready (withRegs { Latches.reset with argBegin := 1 } opened) ∧ (0 : Half).toNat < (1 : Half).toNat :=
  ⟨⟨rfl, rfl, rfl⟩, by decide, ⟨rfl, rfl, rfl⟩, by decide⟩

/-- A payload that ends with FB, and an empty one at its end. -/
theorem witness_WriteMemorySendsThePayload :
    Ready (withRegs { Latches.reset with argAddr := 70, argLen := 2 } opened) ∧
      (70 : Word).toNat + (2 : Word).toNat ≤ tiny.fbCap ∧ (2 : Word) ≠ 0 ∧
      FairFor 4 (withRegs { Latches.reset with argAddr := 70, argLen := 2 } opened) ∧
      (72 : Word).toNat + (0 : Word).toNat ≤ tiny.fbCap ∧
      FairFor 2 (withRegs { Latches.reset with argAddr := 72, argLen := 0 } opened) :=
  ⟨⟨rfl, rfl, rfl⟩, by decide, by decide, ⟨⟨rfl, rfl, rfl⟩, rfl, rfl⟩, by decide, ⟨⟨rfl, rfl, rfl⟩, rfl, rfl⟩⟩

theorem witness_WriteMemorySendsThePayload_invalid :
    Ready (withRegs { Latches.reset with argAddr := 71, argLen := 2 } opened) ∧
      tiny.fbCap < (71 : Word).toNat + (2 : Word).toNat := ⟨⟨rfl, rfl, rfl⟩, by decide⟩

/-- Every byte of PAL written: `v` in the red and blue arrays, `g` in the green one. -/
def mixedPalette (v g : Byte) : State :=
  { opened with pal := (List.range 128).map (fun a => (a, if 32 ≤ a ∧ a < 96 then g else v)) }

theorem mixedPalette_ok : paletteOk (mixedPalette 0x3F 0x7F) := by
  unfold paletteOk
  decide

/-- The greatest entries allowed: 0x3F in red and blue, 0x7F in green. -/
theorem witness_SetPaletteSendsThePalette :
    Ready (mixedPalette 0x3F 0x7F) ∧ paletteOk (mixedPalette 0x3F 0x7F) ∧ FairFor 4 (mixedPalette 0x3F 0x7F) :=
  ⟨⟨rfl, rfl, rfl⟩, mixedPalette_ok, ⟨rfl, rfl, rfl⟩, rfl, rfl⟩

/-- One above them, in red and blue or in green. -/
theorem witness_SetPaletteSendsThePalette_invalid : Ready (mixedPalette 0x40 0) ∧ ¬ paletteOk (mixedPalette 0x40 0) ∧
    Ready (mixedPalette 0 0x80) ∧ ¬ paletteOk (mixedPalette 0 0x80) :=
  ⟨⟨rfl, rfl, rfl⟩, fun h => absurd (h.1 0 (by decide)) (by decide), ⟨rfl, rfl, rfl⟩,
    fun h => absurd (h.2.1 0 (by decide)) (by decide)⟩

theorem witness_SetAddressModeSendsTheFlags :
    Ready opened ∧ opened.tpOpen = true ∧ FairFor 4 opened ∧ Ready closed ∧ closed.tpOpen = false ∧
      { opened with cfg := production }.cfg.IsProduction :=
  ⟨⟨rfl, rfl, rfl⟩, rfl, fair_opened, ⟨rfl, rfl, rfl⟩, rfl, rfl⟩

theorem witness_SetColorModeSendsTheCode : ∀ bpp ∈ [(12 : Byte), 16, 18],
    Ready (withRegs { Latches.reset with argBpp := bpp } opened) ∧
      FairFor 4 (withRegs { Latches.reset with argBpp := bpp } opened) := by
  intro bpp _
  exact ⟨⟨rfl, rfl, rfl⟩, ⟨rfl, rfl, rfl⟩, rfl, rfl⟩

theorem witness_SetColorModeSendsTheCode_invalid :
    Ready (withRegs { Latches.reset with argBpp := 17 } opened) ∧ (17 : Byte) ≠ 12 ∧ (17 : Byte) ≠ 16 ∧
      (17 : Byte) ≠ 18 := ⟨⟨rfl, rfl, rfl⟩, by decide⟩

theorem witness_OpenInitRunsTheTable : Ready closed ∧ closed.tpOpen = false ∧ FairFor 29 closed ∧ Ready opened ∧
    opened.tpOpen = true ∧ { closed with cfg := production }.cfg.IsProduction :=
  ⟨⟨rfl, rfl, rfl⟩, rfl, ⟨⟨rfl, rfl, rfl⟩, rfl, rfl⟩, ⟨rfl, rfl, rfl⟩, rfl, rfl⟩

theorem witness_PlayRequestStartsTheChecks : Ready closed ∧ closed.tpOpen = false ∧ Ready opened ∧
    opened.tpOpen = true := ⟨⟨rfl, rfl, rfl⟩, rfl, ⟨rfl, rfl, rfl⟩, rfl⟩

/-- PLAY before its checks, with a period and a length. -/
def checking (period len : Word) : State :=
  { closed with
    busy := true, runOp := 0xE2, seq := .playCheck,
    regs := { Latches.reset with periodMs := period, fbLen := len } }

/-- The hypotheses of the checks, and one state for each of the four outcomes: no period; one byte more than FB; one
byte less than a frame; FB full. -/
theorem witness_PlayChecksInOrder :
    (∀ period len, (checking period len).busy = true ∧ (checking period len).seq = .playCheck ∧
      (checking period len).todo = [] ∧ (checking period len).inFlight = none ∧ (checking period len).err = 0 ∧
      (checking period len).undisturbed 1 = true) ∧
    (checking 0 35).regs.periodMs = 0 ∧ tiny.fbCap < (checking 1 73).regs.fbLen.toNat ∧
    (checking 1 35).regs.fbLen.toNat % tiny.frameBytes ≠ 0 ∧
    (checking 1 72).regs.fbLen.toNat ≤ tiny.fbCap ∧ (checking 1 72).regs.fbLen.toNat % tiny.frameBytes = 0 :=
  ⟨fun _ _ => ⟨rfl, rfl, rfl, rfl, rfl, rfl⟩, by decide⟩

theorem witness_PlayInitialisesThenCapturesTheClock :
    FairFor 30 (withRegs { Latches.reset with periodMs := 1, fbLen := 72 } closed) ∧ closed.tpOpen = false ∧
      (1 : Word) ≠ 0 ∧ (72 : Word).toNat ≤ tiny.fbCap ∧ (72 : Word).toNat % tiny.frameBytes = 0 ∧
      (0 : Word).toNat % tiny.frameBytes = 0 :=
  ⟨⟨⟨rfl, rfl, rfl⟩, rfl, rfl⟩, by decide⟩

/-- The last frame of the buffer. -/
theorem witness_FrameTripleThenSleep : (atBoundary 1).cfg.wf = true ∧ AtBoundary 1 (atBoundary 1) ∧
    (atBoundary 1).stopReq = false ∧ 1 < (atBoundary 1).nFrames.toNat ∧ (atBoundary 1).undisturbed 15 = true ∧
    (atBoundary 1).env.answersOk 13 = true ∧ { atBoundary 1 with cfg := production }.cfg.IsProduction :=
  ⟨rfl, ⟨rfl, rfl, rfl, rfl⟩, rfl, by decide, rfl, rfl, rfl⟩

/-- A frame under way with a STOP latched. -/
def midFrame : State := { atBoundary 1 with stopReq := true, todo := colEvents tiny }

theorem witness_FrameInProgressIsFinished : midFrame.cfg.wf = true ∧ midFrame.busy = true ∧
    midFrame.seq = .playFrame 1 .col ∧ midFrame.todo = colEvents midFrame.cfg ∧ midFrame.inFlight = none ∧
    midFrame.undisturbed 14 = true ∧ midFrame.env.answersOk 13 = true := ⟨rfl, rfl, rfl, rfl, rfl, rfl, rfl⟩

theorem witness_StopRequestIsReadAtTheBoundaryOnly : (∃ t, step midFrame = .next t) ∧
    (∀ rest, midFrame.script ≠ .host (.readReg 0x10) :: rest) ∧
    (∀ i, midFrame.seq = .playFrame i .col → midFrame.todo ≠ []) ∧
    (midFrame.seq = .playInit lastInitStep → midFrame.todo ≠ []) :=
  ⟨⟨_, rfl⟩, (fun _ h => by cases h), (fun _ _ h => by cases h), fun h => by cases h⟩

theorem witness_DeadlineAdvancesByOnePeriod : 999999999 < 1000000000 := by decide

/-- Three frames from the last frame of the buffer on. -/
theorem witness_DeadlinesStayOnTheGrid : (atBoundary 1).cfg.wf = true ∧ AtBoundary 1 (atBoundary 1) ∧
    (atBoundary 1).stopReq = false ∧ 1 < (atBoundary 1).nFrames.toNat ∧ (atBoundary 1).dlNsec.toNat < 1000000000 ∧
    (atBoundary 1).undisturbed (15 * 3) = true ∧ (atBoundary 1).env.answersOk (13 * 3) = true :=
  ⟨rfl, ⟨rfl, rfl, rfl, rfl⟩, rfl, by decide, by decide, rfl, rfl⟩

/-- PLAY over an empty buffer, with a stop request or without. -/
def emptyLoop (stop : Bool) : State := { atBoundary 0 with seq := .playInit 14, nFrames := 0, stopReq := stop }

theorem witness_StopIsConsumedAtTheFrameBoundary :
    AtBoundary 1 { atBoundary 1 with stopReq := true } ∧ { atBoundary 1 with stopReq := true }.tpOpen = true ∧
      { atBoundary 1 with stopReq := true }.undisturbed 2 = true ∧
      AtBoundary 1 { atBoundary 1 with stopReq := true, tpOpen := false } ∧
      (∀ stop, AtEmptyLoop (emptyLoop stop) ∧ (emptyLoop stop).stopReq = stop ∧ (emptyLoop stop).undisturbed 2 = true) :=
  ⟨⟨rfl, rfl, rfl, rfl⟩, rfl, rfl, ⟨rfl, rfl, rfl, rfl⟩, fun _ => ⟨⟨rfl, rfl, rfl, rfl, rfl⟩, rfl, rfl⟩⟩

theorem witness_StopIsLatchedOnlyDuringPlay : (atBoundary 1).err = 0 ∧ (atBoundary 1).seq = .playFrame 1 .col ∧
    inCommand.err = 0 ∧ inCommand.seq = .cmd := ⟨rfl, rfl, rfl, rfl⟩

theorem witness_CloseTearsDown : Ready opened ∧ opened.tpOpen = true ∧ opened.undisturbed 1 = true ∧ Ready closed ∧
    closed.tpOpen = false := ⟨⟨rfl, rfl, rfl⟩, rfl, rfl, ⟨rfl, rfl, rfl⟩, rfl⟩

/-- The teardown of an error entry: `ERR` is set, `tp.close()` is still to be called. -/
theorem witness_TeardownClosesTheTransportOnce :
    (errorState .usage 0xE0 opened).busy = true ∧ (errorState .usage 0xE0 opened).seq = .teardown ∧
      (errorState .usage 0xE0 opened).todo = [.closeCh] ∧ (errorState .usage 0xE0 opened).inFlight = none ∧
      (errorState .usage 0xE0 opened).undisturbed 1 = true ∧ (errorState .usage 0xE0 opened).err ≠ 0 := by decide

/-- RESAMPLE of the frame of 95_test_vectors.md 4.3 into the last slot of FB. -/
def toResample : State :=
  { closed with src := tinySource, regs := { Latches.reset with argSlot := 1, srcH := 2, srcW := 4, srcPitch := 18 } }

theorem witness_ResampleStoresTheWholeFrame : Ready toResample ∧ toResample.cfg.wf = true ∧
    frameValid toResample.cfg toResample.regs = true ∧
    toResample.undisturbed (toResample.cfg.panelH * toResample.cfg.panelW) = true :=
  ⟨⟨rfl, rfl, rfl⟩, by decide, by decide, by decide⟩

/-- One clause each: no column, no row, a pitch one too small, a frame one byte too long, a slot one too far. -/
theorem witness_ResampleRejectsBadFrames :
    (∀ l, Ready (withRegs l closed)) ∧ { Latches.reset with srcH := 1 }.srcW = 0 ∧
      { Latches.reset with srcW := 1 }.srcH = 0 ∧ (15 : Word).toNat < 4 * (4 : Word).toNat ∧
      tiny.srcCap < ((2 : Word).toNat - 1) * (49 : Word).toNat + 4 * (4 : Word).toNat ∧
      tiny.fbCap < ((2 : Word).toNat + 1) * tiny.frameBytes :=
  ⟨fun _ => ⟨rfl, rfl, rfl⟩, by decide⟩

theorem witness_InterpolationFormula : production.IsProduction := rfl

theorem witness_QuantiserRoundsToNearest : 0 < den tiny ∧ 255 * den tiny ≤ 255 * den tiny ∧ 764 ≤ 765 ∧
    production.IsProduction := ⟨by decide, by decide, by decide, rfl⟩

theorem witness_WeightsSumToTheDenominator : tiny.wf = true := by decide

/-- A frame of one pixel (95_test_vectors.md V21). -/
theorem witness_UniformSourceGivesUniformFrame :
    tiny.wf = true ∧ 1 ≤ { Latches.reset with srcW := 1, srcH := 1, srcPitch := 4 }.srcW.toNat ∧
      1 ≤ { Latches.reset with srcW := 1, srcH := 1, srcPitch := 4 }.srcH.toNat ∧
      ∀ x < 1, ∀ y < 1, sample (fun _ => 128) 4 x y 1 = 128 := by
  refine ⟨by decide, by decide, by decide, fun _ _ _ _ => rfl⟩

theorem witness_ResampleStaysInBounds : tiny.wf = true ∧ frameValid tiny toResample.regs = true ∧ 3 < tiny.panelH ∧
    2 < tiny.panelW := by decide

/-- Two stores that differ in the alpha byte of pixel (0, 0) and in the padding of row 0. -/
theorem witness_AlphaAndPaddingAreNeverRead :
    2 < 3 ∧ 1 ≤ toResample.regs.srcW.toNat ∧ 1 ≤ toResample.regs.srcH.toNat ∧
      ∀ x < toResample.regs.srcW.toNat, ∀ y < toResample.regs.srcH.toNat, ∀ k < 3,
        (fun a => if a = 3 ∨ a = 16 then (0 : Byte) else 9) (y * toResample.regs.srcPitch.toNat + 4 * x + k) =
          (fun _ => (9 : Byte)) (y * toResample.regs.srcPitch.toNat + 4 * x + k) := by decide

/-- `sleepOut` running in an environment that answers `k`. -/
def answering (k : ReplyKind) : State :=
  { inCommand with env := { replies := [], rest := { kind := k, dtNs := 1 }, nowNs := 0 } }

theorem witness_TransportFailureRaisesIoError :
    (answering (.fail 0)).busy = true ∧ (answering (.fail 0)).err = 0 ∧
      (answering (.fail 0)).todo = .level .dc false :: [.write [0x11]] ∧
      (answering (.fail 0)).env.reply.kind = .fail 0 ∧ (answering (.fail 0)).undisturbed 1 = true := by decide

theorem witness_HungPrimitiveHangsTheBlock :
    (answering .wait).busy = true ∧ (answering .wait).todo = .level .dc false :: [.write [0x11]] ∧
      (answering .wait).env.replies = [] ∧ (answering .wait).env.rest.kind = .wait ∧
      (answering .wait).undisturbed (5 + 1) = true := by decide

theorem witness_ErrorIsSticky : halted.err ≠ 0 ∧ step halted = .next halted ∧
    ∀ rest, halted.script ≠ .host .assertReset :: rest := ⟨by decide, rfl, fun _ h => by cases h⟩

theorem witness_TraceOnlyGrows : (∃ t, step inCommand = .next t) ∧
    ∀ rest, inCommand.script ≠ .host .assertReset :: rest := ⟨⟨_, rfl⟩, fun _ h => by cases h⟩

theorem witness_LatchesChangeOnlyByTheHost :
    ∃ t, step (withMove (.writeReg 0x0C 40) opened) = .next t ∧ t.regs ≠ opened.regs := ⟨_, rfl, by decide⟩

theorem witness_MemoriesAreFrozenWhileBusy : (resampling 1 1).busy = true ∧ (∃ t, step (resampling 1 1) = .next t) ∧
    ∀ rest, (resampling 1 1).script ≠ .host .assertReset :: rest := ⟨rfl, ⟨_, rfl⟩, fun _ h => by cases h⟩

theorem witness_ConfigurationIsConstant : ∃ t, step (withMove .assertReset inCommand) = .next t := ⟨_, rfl⟩

theorem witness_ClockNeverDecreases : ∃ t, step (answering .wait) = .next t ∧ t.env.nowNs = 1 := ⟨_, rfl, rfl⟩

theorem witness_ModeLineIsNeverRead : (∃ t, step inCommand = .next t) ∧
    ∀ rest, inCommand.script ≠ .host (.readReg 0x10) :: rest := ⟨⟨_, rfl⟩, fun _ h => by cases h⟩

theorem inCommand_control : ControlInv inCommand :=
  ⟨by decide, by decide, by decide, ⟨rfl, by decide, rfl⟩, by decide, by decide, by decide, by decide⟩

theorem witness_StepKeepsControlInv : ControlInv inCommand ∧ ∃ t, step inCommand = .next t :=
  ⟨inCommand_control, _, rfl⟩

theorem witness_StepKeepsMemoryInv :
    ControlInv (resampling 3 2) ∧ MemoryInv (resampling 3 2) ∧ ∃ t, step (resampling 3 2) = .next t :=
  ⟨⟨by decide, by decide, by decide, ⟨rfl, by decide, by decide, by decide⟩, by decide, by decide, by decide, by decide⟩,
    ⟨fun sp => by cases sp <;> decide, fun sp => by cases sp <;> decide⟩, _, rfl⟩

theorem witness_StepKeepsWireInv : ControlInv inCommand ∧ WireInv inCommand ∧ ∃ t, step inCommand = .next t :=
  ⟨inCommand_control, rfl, _, rfl⟩

theorem witness_StatusRegisterReads : (withMove (.readReg 0x10) opened).script = .host (.readReg 0x10) :: [] := rfl

/-- The reserved numbers next to the listed ones, and a locked latch. -/
theorem witness_ReservedAndLockedRegisters :
    (∀ num ∈ [0x0D, 0x0F, 0x13, 0x1E, 0x20], 0x0C < num ∧ num ≠ 0x10 ∧ num ≠ 0x11 ∧ num ≠ 0x12 ∧ num ≠ 0x1F) ∧
      inCommand.busy = true ∧ 0x0C ≠ 0x1F := by decide

theorem witness_LatchWriteReadsBack : opened.busy = false ∧ 0x0C ≤ 0x0C ∧
    (withMove (.writeReg 0x0C 40) opened).script = .host (.writeReg 0x0C 40) :: [] := by decide

/-- The last latch and a register after it. -/
theorem witness_HostReadsChangeNothing_latch :
    (withMove (.readReg 0x0C) opened).script = .host (.readReg 0x0C) :: [] ∧
      (0x0C, opened.regs.periodMs) ∈ [(0x0B, opened.regs.fbLen), (0x0C, opened.regs.periodMs)] := by decide

theorem witness_HostReadsChangeNothing : 71 < capacity tiny .fb ∧
    (withMove (.readMem .fb 71) opened).script = .host (.readMem .fb 71) :: [] := by decide

theorem witness_HostByteWriteStoresThatByte : opened.busy = false ∧ 71 < capacity tiny .fb ∧
    (withMove (.writeMem .fb 71 9) opened).script = .host (.writeMem .fb 71 9) :: [] := by decide

/-- One state for all the clauses: every latch valid at once, the palette at its limits. -/
theorem witness_CommandsAddTheirTaggedBytes :
    (withRegs { Latches.reset with argCurve := 25, argBpp := 18, argBegin := 2, argEnd := 2, argAddr := 70, argLen := 2 }
      (mixedPalette 0x3F 0x7F)).tpOpen = true ∧
    FairFor 4 (withRegs
      { Latches.reset with argCurve := 25, argBpp := 18, argBegin := 2, argEnd := 2, argAddr := 70, argLen := 2 }
      (mixedPalette 0x3F 0x7F)) ∧
    (2 : Half).toNat ≤ tiny.panelW - 1 ∧ (2 : Half).toNat ≤ tiny.panelH - 1 ∧
    (70 : Word).toNat + (2 : Word).toNat ≤ tiny.fbCap ∧ paletteOk (mixedPalette 0x3F 0x7F) :=
  ⟨rfl, ⟨⟨rfl, rfl, rfl⟩, rfl, rfl⟩, by decide, by decide, by decide, mixedPalette_ok⟩

end Sys2Proof.Tests
end

section
/-! The control invariant is kept by every step (10_state.md R24, R26; 60_exceptions.md R245, R252). -/

namespace Sys2Proof.Machine

/-! ### What the control invariant says of an idle and of a running block -/

/-- What the control invariant fixes of an idle block. -/
theorem ControlInv.idle {s : State} (h : ControlInv s) (hb : s.busy = false) :
    s.seq = .idle ∧ s.todo = [] ∧ s.inFlight = none ∧ s.stopReq = false := by
  have hq : s.seq = .idle := by
    by_contra hq
    simp [h.busyIff.2 hq] at hb
  have ht : s.todo = [] := by simpa [PositionOk, hq] using h.position
  refine ⟨hq, ht, h.noStrayCall ht, ?_⟩
  by_contra hs
  simpa [hq, Seq.isPlay] using h.stopInPlay (by simpa using hs)

/-- An idle block meets the control invariant when nothing is left of an operation and a halted one is closed. -/
theorem ControlInv.of_idle {s : State} (hcfg : s.cfg.wf = true) (hb : s.busy = false) (hq : s.seq = .idle)
    (ht : s.todo = []) (hf : s.inFlight = none) (hs : s.stopReq = false) (hopen : s.err ≠ 0 → s.tpOpen = false)
    (hcode : s.err.toNat ≤ 4) (hd : s.dlNsec.toNat < 1000000000) : ControlInv s where
  config := hcfg
  busyIff := by simp [hb, hq]
  noStrayCall := fun _ => hf
  position := by simpa [PositionOk, hq] using ht
  haltedClosed := fun he => .inr ⟨hb, hopen he⟩
  errCode := hcode
  stopInPlay := fun h => by simp [hs] at h
  deadline := hd

/-- The part of the control invariant of a running operation that looks neither at its calls nor at the transport: it
survives the effect of every primitive. -/
structure Running (s : State) : Prop where
  config : s.cfg.wf = true
  busy : s.busy = true
  active : s.seq ≠ .idle
  halted : s.err ≠ 0 → s.seq = .teardown
  errCode : s.err.toNat ≤ 4
  stopInPlay : s.stopReq = true → s.seq.isPlay = true
  deadline : s.dlNsec.toNat < 1000000000

theorem ControlInv.running {s : State} (h : ControlInv s) (hb : s.busy = true) : Running s where
  config := h.config
  busy := hb
  active := h.busyIff.1 hb
  halted := fun he => (h.haltedClosed he).resolve_right fun hc => by simp [hb] at hc
  errCode := h.errCode
  stopInPlay := h.stopInPlay
  deadline := h.deadline

theorem Running.controlInv {s : State} (h : Running s) (hf : s.todo = [] → s.inFlight = none) (hp : PositionOk s) :
    ControlInv s where
  config := h.config
  busyIff := by simp [h.busy, h.active]
  noStrayCall := hf
  position := hp
  haltedClosed := fun he => .inl (h.halted he)
  errCode := h.errCode
  stopInPlay := h.stopInPlay
  deadline := h.deadline

/-- Only the teardown runs with an error latched (log entry 11). -/
theorem Running.noError {s : State} (h : Running s) (hq : s.seq ≠ .teardown) : s.err = 0 := by
  by_contra he
  exact hq (h.halted he)

/-- A running operation that goes on to another position in order keeps the invariant, if PLAY stays PLAY. -/
theorem Running.goTo {s t : State} (h : Running s) (herr : s.err = 0) (hcfg : t.cfg = s.cfg) (hb : t.busy = s.busy)
    (he : t.err = s.err) (hs : t.stopReq = s.stopReq) (hd : t.dlNsec.toNat < 1000000000) (hq : t.seq ≠ .idle)
    (hplay : t.seq.isPlay = s.seq.isPlay) (hf : t.todo = [] → t.inFlight = none) (hp : PositionOk t) :
    ControlInv t :=
  have hrun : Running t :=
    ⟨hcfg ▸ h.config, hb ▸ h.busy, hq, fun h0 => absurd (he.trans herr) h0, he ▸ h.errCode,
      fun h1 => hplay ▸ h.stopInPlay (hs ▸ h1), hd⟩
  hrun.controlInv hf hp

/-- The invariant does not look at the fields a host read, a held request or a turn writes. -/
theorem ControlInv.frame {s : State} (h : ControlInv s) (v : Word) (held : List Byte) (c : List Turn) :
    ControlInv { s with rdata := v, held := held, script := c } :=
  ⟨h.config, h.busyIff, h.noStrayCall, h.position, h.haltedClosed, h.errCode, h.stopInPlay, h.deadline⟩

/-! ### The ends of an operation -/

/-- A teardown leaves the one call of `tp.close()`, or a block at rest (44_streamer.md R225). -/
theorem controlInv_teardown {s : State} (hcfg : s.cfg.wf = true) (hcode : s.err.toNat ≤ 4) (hs : s.stopReq = false)
    (hd : s.dlNsec.toNat < 1000000000) : ControlInv s.teardown := by
  cases ho : s.tpOpen with
  | false =>
    rw [teardown_closed ho]
    exact .of_idle hcfg rfl rfl rfl rfl hs (fun _ => ho) hcode hd
  | true =>
    rw [teardown_open ho]
    have hr : Running { s with busy := true, seq := .teardown, todo := [.closeCh], inFlight := none } :=
      ⟨hcfg, rfl, nofun, fun _ => rfl, hcode, fun h => by simp [hs] at h, hd⟩
    exact hr.controlInv (fun _ => rfl) ⟨ho, rfl⟩

/-- The classes the block raises have the codes 1 to 4; `DecodeError` has no cause in it (60_exceptions.md R241). -/
theorem code_le_four {e : ErrClass} (h : e ≠ .decode) : e.code.toNat ≤ 4 := by
  cases e with
  | decode => exact absurd rfl h
  | _ => decide

/-- Error entry keeps the invariant, with or without an error latched before (60_exceptions.md R245). -/
theorem controlInv_raise {s : State} {e : ErrClass} (hcfg : s.cfg.wf = true) (hcode : s.err.toNat ≤ 4)
    (hd : s.dlNsec.toNat < 1000000000) (he : e ≠ .decode) : ControlInv (s.raise e) := by
  refine controlInv_teardown hcfg ?_ rfl hd
  dsimp only
  split_ifs
  · exact code_le_four he
  · exact hcode

/-- The completion of an operation that ended without an error, or of the teardown once the transport is closed. -/
theorem Running.complete {s : State} (h : Running s) (hs : s.stopReq = false) (ho : s.err ≠ 0 → s.tpOpen = false) :
    ControlInv s.complete :=
  .of_idle h.config rfl rfl rfl rfl hs ho h.errCode h.deadline

/-- `stop_req` is 0 outside PLAY. -/
theorem Running.noStop {s : State} (h : Running s) (hq : s.seq.isPlay = false) : s.stopReq = false := by
  by_contra hs
  simp [h.stopInPlay (by simpa using hs)] at hq

/-- A position whose calls are all to be made. -/
theorem restOf_self {l : List Event} (h : l ≠ []) : RestOf l l := ⟨h, List.suffix_refl l⟩

/-! ### Requests -/

/-- A request that is accepted starts a well-set operation, or raises an error at once. -/
theorem controlInv_issue {s t : State} {code : Byte} (h : ControlInv s) (ht : s.issue code = .next t) :
    ControlInv t := by
  obtain ⟨u, hu, hc⟩ := issue_cases code s
  obtain rfl : u = t := by simpa [hu] using ht
  rcases hc with rfl | ⟨-, -, rfl⟩ | ⟨he, hplay, rfl⟩ | ⟨he, hb, hc⟩
  · exact h
  · exact h.frame _ _ _
  · exact ⟨h.config, h.busyIff, h.noStrayCall, h.position, h.haltedClosed, h.errCode, fun _ => hplay, h.deadline⟩
  · obtain ⟨hq, htodo, hf, hs⟩ := h.idle hb
    obtain ⟨hw, hh, -⟩ := Config.wf_bounds h.config
    have hraise : ∀ e, e ≠ .decode → ControlInv ((s.accept code).raise e) := fun e hne =>
      controlInv_raise h.config h.errCode h.deadline hne
    have hrun : ∀ (q : Seq) (todo : List Event), q ≠ .idle →
        Running { s.accept code with seq := q, todo := todo } := fun q todo hne =>
      ⟨h.config, rfl, hne, fun h0 => absurd he h0, h.errCode, fun h1 => by simp [hs] at h1, h.deadline⟩
    rcases hc with rfl | ⟨gs, hgs, rfl⟩ | rfl | rfl | rfl | rfl
    · exact hraise _ nofun
    · cases gs with
      | none => exact hraise _ nofun
      | some gs =>
        obtain ⟨k, hk⟩ := hgs.resolve_left nofun
        rw [encode_some hk.symm]
        unfold State.startCommand
        dsimp only
        split_ifs with ho
        · exact (hrun .cmd _ nofun).controlInv (fun _ => hf)
            ⟨ho, emission_ne_nil _ (groupsOf_ne_nil _ _), emission_isGroupCall _ _⟩
        · exact hraise _ nofun
    · unfold State.startOpenInit
      split_ifs with ho
      · exact hraise _ nofun
      · exact (hrun (.init 0) _ nofun).controlInv (fun _ => hf)
          ⟨by decide, restOf_self (initEvents_ne_nil s.cfg (k := 0) (by decide)), by simpa using ho⟩
    · unfold State.startPlay
      split_ifs with ho
      · exact hraise _ nofun
      · exact (hrun .playCheck _ nofun).controlInv (fun _ => hf) ⟨rfl, by simpa using ho⟩
    · unfold State.startResample
      split_ifs with hv
      · exact (hrun (.resample 0 0) _ nofun).controlInv (fun _ => hf)
          ⟨rfl, by show 0 < s.cfg.panelH; omega, by show 0 < s.cfg.panelW; omega, hv⟩
      · exact hraise _ nofun
    · exact controlInv_teardown h.config h.errCode hs h.deadline


/-! ### The positions of a running operation -/

/-- `tp.close()` is called by the teardown only (10_state.md R45): no other position has it. -/
theorem closeCh_not_mem_emission (c : Config) (gs : List Group) : Event.closeCh ∉ emission c gs := fun h => by
  simpa [Event.isGroupCall] using List.all_eq_true.1 (emission_isGroupCall c gs) _ h

theorem closeCh_not_mem_initEvents (c : Config) (k : Nat) : Event.closeCh ∉ initEvents c k := by
  unfold initEvents
  split <;> first
    | exact closeCh_not_mem_emission _ _
    | simp

/-- Every primitive but `tp.close()` leaves an open transport open. -/
theorem primEffect_keeps_open {p : Event} {s : State} (hp : p ≠ .closeCh) (ho : s.tpOpen = true) :
    (primEffect p s).tpOpen = true := by
  cases p with
  | level l v => cases l <;> exact ho
  | closeCh => exact absurd rfl hp
  | openCh _ _ => rfl
  | write _ => exact ho
  | pause _ => exact ho
  | sleepUntil _ _ => exact ho

/-- What stands of a position once its last primitive has returned: the transport as the position leaves it, the
operands of PLAY. Positions without primitives do not occur. -/
def PositionDone (s : State) : Prop :=
  match s.seq with
  | .idle => False
  | .cmd => True
  | .init k => k ≤ lastInitStep ∧ s.tpOpen = true
  | .resample _ _ => False
  | .playCheck => False
  | .playInit k => PlayOk s ∧ k ≤ lastInitStep ∧ s.tpOpen = true
  | .playFrame i _ => s.tpOpen = true ∧ PlayOk s ∧ i < s.nFrames.toNat ∧ s.frameIdx = BitVec.ofNat 32 i
  | .teardown => s.tpOpen = false

theorem RestOf.tail {p : Event} {rest whole : List Event} (h : RestOf (p :: rest) whole) (hne : rest ≠ []) :
    RestOf rest whole :=
  ⟨hne, (List.suffix_cons p rest).trans h.2⟩

theorem RestOf.mem {p : Event} {rest whole : List Event} (h : RestOf (p :: rest) whole) : p ∈ whole :=
  h.2.subset List.mem_cons_self

/-- Step 0 of the table is the open alone; it and every later step leave the transport open (44_streamer.md R203). -/
theorem InitOk.opens {k n : Nat} {s : State} {p : Event} {rest : List Event} (h : InitOk k s)
    (ht : s.todo = p :: rest) : (primEffect p (s.answered p n)).tpOpen = true ∧ (k = 0 → rest = []) := by
  obtain ⟨-, hrest, hopen⟩ := h
  rw [ht] at hrest
  cases k with
  | zero =>
    obtain ⟨rfl, rfl⟩ : p = .openCh s.cfg.spiHz s.cfg.spiMode ∧ rest = [] := by
      simpa [initEvents, List.suffix_cons_iff] using hrest.2
    exact ⟨rfl, fun _ => rfl⟩
  | succ k =>
    have hp : p ≠ .closeCh := fun e => closeCh_not_mem_initEvents s.cfg (k + 1) (e ▸ hrest.mem)
    exact ⟨primEffect_keeps_open hp (hopen.2 (Nat.succ_ne_zero k)), nofun⟩

/-- No phase of a frame closes the transport. -/
theorem PhaseOk.not_close {i : Nat} {s : State} {ph : Phase} {p : Event} {rest : List Event} (h : PhaseOk i s ph)
    (ht : s.todo = p :: rest) : p ≠ .closeCh := by
  have notMem : ∀ gs, RestOf (p :: rest) (emission s.cfg gs) → p ≠ .closeCh := fun gs hr e =>
    closeCh_not_mem_emission s.cfg gs (e ▸ hr.mem)
  cases ph <;> simp only [PhaseOk, ht] at h
  case col => exact notMem _ (h.resolve_left nofun)
  case row => exact notMem _ h
  case mem => exact notMem _ h
  case advance => simp at h
  case sleep =>
    obtain ⟨rfl, -⟩ := List.cons_eq_cons.1 h
    nofun

/-- A primitive that returned leaves a running operation well set. -/
theorem Running.returned {s : State} (h : Running s) (p : Event) (n : Nat) (todo : List Event) :
    Running ((primEffect p (s.answered p n)).setTodo todo) := by
  obtain ⟨dc, rst, lines, o, hu, -⟩ := primEffect_eq p (s.answered p n)
  rw [hu]
  exact ⟨h.config, h.busy, h.active, h.halted, h.errCode, h.stopInPlay, h.deadline⟩

/-- A primitive that returned, with others of its position left, leaves the position in order. -/
theorem PositionOk.returned {s : State} {p : Event} {rest : List Event} (n : Nat) (h : PositionOk s)
    (ht : s.todo = p :: rest) (hne : rest ≠ []) : PositionOk ((primEffect p (s.answered p n)).setTodo rest) := by
  obtain ⟨dc, rst, lines, o, hu, hgroup⟩ := primEffect_eq p (s.answered p n)
  have hopen : (primEffect p (s.answered p n)).tpOpen = o := by rw [hu]
  have init : ∀ k, InitOk k s → InitOk k ((primEffect p (s.answered p n)).setTodo rest) := by
    intro k hk
    obtain ⟨h1, h2⟩ := hk.opens (n := n) ht
    obtain ⟨hle, hrest, -⟩ := hk
    rw [ht] at hrest
    exact ⟨hle, by rw [hu]; exact hrest.tail hne, by simpa [h1] using fun h0 => hne (h2 h0)⟩
  cases hq : s.seq <;> simp only [PositionOk, hq, ht] at h
  case idle => simp at h
  case cmd =>
    obtain ⟨ho, -, hall⟩ := h
    simp only [List.all_cons, Bool.and_eq_true] at hall
    rw [hu]
    simp only [PositionOk, State.setTodo, State.answered, hq]
    exact ⟨(hgroup hall.1).trans ho, hne, hall.2⟩
  case init k =>
    have := init k h
    rw [hu] at this ⊢
    simpa only [PositionOk, State.setTodo, State.answered, hq] using this
  case resample r c => simp at h
  case playCheck => simp at h
  case playInit k =>
    have := init k (h.2.resolve_right fun hk => by simp [EmptyLoopOk, ht] at hk)
    rw [hu] at this ⊢
    simp only [PositionOk, State.setTodo, State.answered, hq] at this ⊢
    exact ⟨h.1, .inl this⟩
  case playFrame i ph =>
    obtain ⟨ho, hplay, hi, hidx, hph⟩ := h
    have ho' : o = true := hopen ▸ primEffect_keeps_open (hph.not_close ht) ho
    rw [hu]
    simp only [PositionOk, State.setTodo, State.answered, hq]
    refine ⟨ho', hplay, hi, hidx, ?_⟩
    cases ph <;> simp only [PhaseOk, ht] at hph ⊢
    case col => exact .inr ((hph.resolve_left nofun).tail hne)
    case row => exact hph.tail hne
    case mem => exact hph.tail hne
    case advance => simp at hph
    case sleep => exact absurd (List.cons_eq_cons.1 hph).2 hne
  case teardown => exact absurd (List.cons_eq_cons.1 h.2).2 hne

/-- The last primitive of a position has returned. -/
theorem PositionOk.done {s : State} {p : Event} (n : Nat) (h : PositionOk s) (ht : s.todo = [p]) :
    PositionDone ((primEffect p (s.answered p n)).setTodo []) := by
  obtain ⟨dc, rst, lines, o, hu, -⟩ := primEffect_eq p (s.answered p n)
  have hopen : (primEffect p (s.answered p n)).tpOpen = o := by rw [hu]
  rw [hu]
  cases hq : s.seq <;> simp only [PositionOk, hq, ht] at h <;>
    simp only [PositionDone, State.setTodo, State.answered, hq]
  case idle => simp at h
  case init k => exact ⟨h.1, hopen ▸ (h.opens ht).1⟩
  case resample r c => simp at h
  case playCheck => simp at h
  case playInit k =>
    have hk := h.2.resolve_right fun hk => by simp [EmptyLoopOk, ht] at hk
    exact ⟨h.1, hk.1, hopen ▸ (hk.opens ht).1⟩
  case playFrame i ph =>
    obtain ⟨ho, hplay, hi, hidx, hph⟩ := h
    exact ⟨hopen ▸ primEffect_keeps_open (hph.not_close ht) ho, hplay, hi, hidx⟩
  case teardown =>
    obtain rfl : p = .closeCh := (List.cons_eq_cons.1 h.2).1
    rw [← hopen]
    rfl

/-! ### What follows a position -/

/-- The start of the loop over the frames: frame 0, or the loop over an empty buffer (44_streamer.md R211, R215). -/
theorem controlInv_toFrames {s : State} (h : Running s) (hq : s.seq = .playInit lastInitStep)
    (hf : s.inFlight = none) (ho : s.tpOpen = true) (hplay : PlayOk s) : ControlInv s.captureNow.toFrames := by
  have hd : s.captureNow.dlNsec.toNat < 1000000000 := by
    have : s.env.nowNsec < 1000000000 := Nat.mod_lt _ (by norm_num)
    simp only [State.captureNow_dlNsec, BitVec.toNat_ofNat]
    omega
  have herr : s.err = 0 := h.noError (by simp [hq])
  by_cases hn : s.nFrames = 0
  · rw [toFrames_empty (by simpa using hn)]
    refine h.goTo herr rfl rfl rfl rfl hd (by simp [hq]) (by simp) (fun _ => by simpa using hf) ?_
    simp only [PositionOk, State.setTodo_seq, State.captureNow_seq, hq]
    exact ⟨hplay, .inr ⟨rfl, rfl, hn, ho⟩⟩
  · rw [toFrames_first (by simpa using hn)]
    refine h.goTo herr rfl rfl rfl rfl hd nofun (by rw [hq]; rfl) (fun _ => by simpa using hf) ?_
    have hpos : 0 < s.nFrames.toNat := by
      rw [Nat.pos_iff_ne_zero]
      exact fun h0 => hn (BitVec.eq_of_toNat_eq h0)
    exact ⟨ho, hplay, hpos, rfl, .inl rfl⟩

theorem nextFrame_lt {n i : Nat} (h : i < n) : nextFrame n i < n := by
  unfold nextFrame
  split_ifs <;> omega

/-- After the last primitive of a position the sequencer goes to a position in order, or ends the operation. -/
theorem controlInv_afterPosition {s : State} (h : Running s) (hf : s.inFlight = none)
    (hdone : PositionDone s) : ControlInv s.afterPosition := by
  have enter : ∀ q, s.seq ≠ .teardown → q ≠ .idle → q.isPlay = s.seq.isPlay → PositionOk (s.enter q) →
      ControlInv (s.enter q) := fun q hne hq hplay hp =>
    h.goTo (h.noError hne) rfl rfl rfl rfl h.deadline hq hplay (fun _ => hf) hp
  cases hq : s.seq <;> simp only [PositionDone, hq] at hdone <;> simp only [State.afterPosition, hq]
  case cmd =>
    exact h.complete (h.noStop (by rw [hq]; rfl)) fun he => absurd (h.noError (by simp [hq])) he
  case init k =>
    split_ifs with hk
    · exact enter _ (by simp [hq]) nofun (by rw [hq]; rfl)
        ⟨hk, restOf_self (initEvents_ne_nil s.cfg hk), by simp [hdone.2]⟩
    · exact h.complete (h.noStop (by rw [hq]; rfl)) fun he => absurd (h.noError (by simp [hq])) he
  case playInit k =>
    obtain ⟨hplay, hle, ho⟩ := hdone
    split_ifs with hk
    · exact enter _ (by simp [hq]) nofun (by rw [hq]; rfl)
        ⟨hplay, .inl ⟨hk, restOf_self (initEvents_ne_nil s.cfg hk), by simp [ho]⟩⟩
    · obtain rfl : k = lastInitStep := by omega
      exact controlInv_toFrames h hq hf ho hplay
  case playFrame i ph =>
    obtain ⟨ho, hplay, hi, hidx⟩ := hdone
    have next : ∀ ph', PhaseOk i (s.enter (.playFrame i ph')) ph' → ControlInv (s.enter (.playFrame i ph')) :=
      fun ph' hp => enter _ (by simp [hq]) nofun (by rw [hq]; rfl) ⟨ho, hplay, hi, hidx, hp⟩
    cases ph
    case col => exact next .row (restOf_self (rowEvents_ne_nil h.config))
    case row => exact next .mem (restOf_self (memEvents_ne_nil i h.config))
    case mem => exact next .advance rfl
    case advance => exact next .sleep rfl
    case sleep =>
      refine h.goTo (h.noError (by simp [hq])) rfl rfl rfl rfl h.deadline nofun (by rw [hq]; rfl) (fun _ => hf) ?_
      exact ⟨ho, hplay, nextFrame_lt hi, rfl, .inl rfl⟩
  case teardown =>
    exact h.complete (h.noStop (by rw [hq]; rfl)) fun _ => hdone

/-! ### Steps at a position without primitives -/

/-- The checks of PLAY raise an error or start the initialisation with good operands (44_streamer.md R211 to R213). -/
theorem controlInv_playCheck {s : State} (h : Running s) (hq : s.seq = .playCheck) (hf : s.inFlight = none)
    (ho : s.tpOpen = false) : ControlInv s.playCheck := by
  have hraise : ∀ e, e ≠ .decode → ControlInv (State.raise e { s with periodLatched := s.regs.periodMs }) :=
    fun e he => controlInv_raise h.config h.errCode h.deadline he
  unfold State.playCheck
  dsimp only
  split_ifs with hp hcap hmul
  · exact hraise _ nofun
  · exact hraise _ nofun
  · exact hraise _ nofun
  · refine h.goTo (h.noError (by simp [hq])) rfl rfl rfl rfl h.deadline nofun (by rw [hq]; rfl) (fun _ => hf)
      ⟨⟨hp, ?_⟩, .inl ⟨by decide, restOf_self (initEvents_ne_nil s.cfg (k := 0) (by decide)), ?_⟩⟩
    · have hle : s.regs.fbLen.toNat / s.cfg.frameBytes * s.cfg.frameBytes ≤ s.regs.fbLen.toNat :=
        Nat.div_mul_le_self _ _
      have hlt : s.regs.fbLen.toNat / s.cfg.frameBytes < 2 ^ 32 :=
        lt_of_le_of_lt (Nat.div_le_self _ _) s.regs.fbLen.isLt
      show (BitVec.ofNat 32 (s.regs.fbLen.toNat / s.cfg.frameBytes)).toNat * s.cfg.frameBytes ≤ s.cfg.fbCap
      rw [BitVec.toNat_ofNat, Nat.mod_eq_of_lt hlt]
      omega
    · show s.tpOpen = true ↔ _
      simp [ho]

/-- A pixel of RESAMPLE is followed by the next one or by the end (42_scaler.md R170). -/
theorem controlInv_pixelStep {s : State} {r col : Nat} (h : Running s) (hq : s.seq = .resample r col)
    (ht : s.todo = []) (hf : s.inFlight = none) (hr : r < s.cfg.panelH) (hv : frameValid s.cfg s.regs = true) :
    ControlInv (s.pixelStep r col) := by
  have herr : s.err = 0 := h.noError (by simp [hq])
  obtain ⟨hw, -⟩ := Config.wf_bounds h.config
  unfold State.pixelStep
  dsimp only
  rw [storePixel_eq]
  cases hn : nextPixel s.cfg r col with
  | none =>
    exact .of_idle h.config rfl rfl rfl rfl (h.noStop (by rw [hq]; rfl)) (fun he => absurd herr he) h.errCode
      h.deadline
  | some next =>
    obtain ⟨hr', hc', -⟩ := nextPixel_some hn hr (by omega)
    exact h.goTo herr rfl rfl rfl rfl h.deadline nofun (by rw [hq]; rfl) (fun _ => hf)
      ⟨ht, hr', hc', hv⟩

/-- The deadline's nanoseconds stay below 10^9 (44_streamer.md R219). -/
theorem advanceDeadline_lt (sec p : Nat) {nsec : Nat} (h : nsec < 1000000000) :
    (advanceDeadline sec nsec p).2 < 1000000000 := by
  have : p % 1000 < 1000 := Nat.mod_lt _ (by norm_num)
  unfold advanceDeadline
  dsimp only
  split_ifs <;> dsimp only <;> omega

/-- A consumed STOP is a teardown without an error (44_streamer.md R211). -/
theorem controlInv_stopped {s : State} (h : Running s) : ControlInv s.stopped :=
  controlInv_teardown h.config h.errCode rfl h.deadline

/-- A step at a position that has no primitive left to call keeps the invariant. -/
theorem controlInv_internalStep {s : State} (h : ControlInv s) (hb : s.busy = true) (ht : s.todo = []) :
    ControlInv s.internalStep := by
  have hrun := h.running hb
  have hf := h.noStrayCall ht
  have hp := h.position
  have noRest : ∀ whole, ¬ RestOf s.todo whole := fun whole hr => hr.1 ht
  cases hq : s.seq <;> simp only [PositionOk, hq] at hp <;> simp only [State.internalStep, hq]
  case idle => exact absurd hq hrun.active
  case cmd =>
    obtain ⟨-, hne, -⟩ := hp
    exact absurd ht hne
  case init k =>
    obtain ⟨-, hrest, -⟩ := hp
    exact absurd hrest (noRest _)
  case resample r c =>
    obtain ⟨-, hr, -, hv⟩ := hp
    exact controlInv_pixelStep hrun hq ht hf hr hv
  case playCheck =>
    obtain ⟨-, hclosed⟩ := hp
    exact controlInv_playCheck hrun hq hf hclosed
  case playInit k =>
    obtain ⟨rfl, -, -, -⟩ := hp.2.resolve_left fun hk => noRest _ hk.2.1
    rw [if_pos rfl]
    unfold State.emptyPass
    split_ifs
    · exact controlInv_stopped hrun
    · exact h
  case playFrame i ph =>
    obtain ⟨ho, hplay, hi, hidx, hph⟩ := hp
    cases ph
    case col =>
      show ControlInv s.boundary
      unfold State.boundary
      split_ifs
      · exact controlInv_stopped hrun
      · refine hrun.goTo (hrun.noError (by simp [hq])) rfl rfl rfl rfl h.deadline hrun.active rfl (fun _ => hf) ?_
        simp only [PositionOk, State.setTodo_seq, hq]
        exact ⟨ho, hplay, hi, hidx, .inr (restOf_self (colEvents_ne_nil h.config))⟩
    case row => exact absurd hph (noRest _)
    case mem => exact absurd hph (noRest _)
    case advance =>
      have hd := advanceDeadline_lt s.dlSec s.periodLatched.toNat h.deadline
      refine hrun.goTo (hrun.noError (by simp [hq])) rfl rfl rfl rfl ?_ nofun (by rw [hq]; rfl) (fun _ => hf)
        ⟨ho, hplay, hi, hidx, rfl⟩
      simp only [State.enter_dlNsec, State.moveDeadline_dlNsec, BitVec.toNat_ofNat]
      omega
    case sleep => simp [PhaseOk, ht] at hph
  case teardown => simp [ht] at hp

/-! ### Every step -/

/-- A step of the running operation keeps the control invariant. -/
theorem controlInv_seqStep {s : State} (h : ControlInv s) (hb : s.busy = true) : ControlInv s.seqStep := by
  cases ht : s.todo with
  | nil =>
    rw [seqStep_internal ht]
    exact controlInv_internalStep h hb ht
  | cons p rest =>
    have hrun := h.running hb
    obtain ⟨n, -, hs | hs | ⟨k, hs⟩⟩ := seqStep_calls ht <;> rw [hs]
    · exact ⟨h.config, h.busyIff, fun h0 => absurd (ht.symm.trans h0) nofun, h.position, h.haltedClosed, h.errCode,
        h.stopInPlay, h.deadline⟩
    · have hf : (primEffect p (s.answered p n)).inFlight = none := by
        obtain ⟨_, _, _, _, hu, -⟩ := primEffect_eq p (s.answered p n)
        rw [hu]; rfl
      cases rest with
      | nil => exact controlInv_afterPosition (hrun.returned p n []) hf (h.position.done n ht)
      | cons q qs => exact (hrun.returned p n _).controlInv (fun _ => hf) (h.position.returned n ht nofun)
    · exact controlInv_raise h.config h.errCode h.deadline nofun

/-- A host write keeps the invariant: the latches are locked while busy (10_state.md R33). -/
theorem controlInv_writeLatch {s : State} (h : ControlInv s) (num : Nat) (v : Word) :
    ControlInv (s.writeLatch num v) := by
  unfold State.writeLatch
  split_ifs with hb
  · exact h
  · have hb : s.busy = false := by simpa using hb
    obtain ⟨hq, ht, hf, hs⟩ := h.idle hb
    refine .of_idle h.config hb hq ht hf hs (fun he => ?_) h.errCode h.deadline
    exact ((h.haltedClosed he).resolve_left (by simp [hq])).2

theorem controlInv_writeByte {s : State} (h : ControlInv s) (hb : s.busy = false) (sp : Space) (a : Nat) (v : Byte) :
    ControlInv (s.writeByte sp a v) := by
  obtain ⟨hq, ht, hf, hs⟩ := h.idle hb
  have ho : s.err ≠ 0 → s.tpOpen = false := fun he => ((h.haltedClosed he).resolve_left (by simp [hq])).2
  cases sp <;> exact .of_idle h.config hb hq ht hf hs ho h.errCode h.deadline

/-- The reset state meets the invariant whatever the well-formed configuration is. -/
theorem controlInv_assertReset {s : State} (h : s.cfg.wf = true) : ControlInv s.assertReset :=
  .of_idle h rfl rfl rfl rfl rfl (fun he => absurd rfl he) (show (0 : BitVec 3).toNat ≤ 4 by decide)
    (show (0 : BitVec 30).toNat < 1000000000 by decide)

/-- Settles O51: by the cases of a step, and in the running operation by the position. -/
theorem stepKeepsControlInv : Obligations.StepKeepsControlInv := by
  intro s t h ht
  have hs : ControlInv (s.setScript s.script.tail) := h.frame s.rdata s.held s.script.tail
  rcases step_cases ht with ⟨v, rfl⟩ | ⟨num, v, _, -, -, rfl⟩ | ⟨sp, a, v, hb, -, rfl⟩ | ⟨_, -, rfl⟩ | ⟨code, hc⟩ |
    ⟨hb, rfl⟩ | rfl | ⟨code, held, -, -, -, hc⟩
  · exact h.frame v s.held s.script.tail
  · exact controlInv_writeLatch hs num v
  · exact controlInv_writeByte hs hb sp a v
  · exact controlInv_assertReset h.config
  · exact controlInv_issue hs hc
  · exact controlInv_seqStep hs hb
  · exact hs
  · exact controlInv_issue (h.frame s.rdata held s.script.tail) hc

end Sys2Proof.Machine
end

section
/-! What no step but a host move changes: the configuration, the latches, the events sent, a latched error; and time
goes on (10_state.md R22, R23, R31, R46, R48). Said once of the block, from which each statement follows. -/

namespace Sys2Proof.Machine

/-- The block went on from `s` to `t`: configuration and latches stand, events are appended only, the clock does not
run backwards, the first error stays. -/
structure Onward (s t : State) : Prop where
  cfg : t.cfg = s.cfg
  regs : t.regs = s.regs
  trace : s.trace <+: t.trace
  clock : s.env.nowNs ≤ t.env.nowNs
  sticky : s.err ≠ 0 → t.err = s.err ∧ t.errOp = s.errOp

theorem Onward.trans {s t u : State} (h : Onward s t) (g : Onward t u) : Onward s u where
  cfg := g.cfg.trans h.cfg
  regs := g.regs.trans h.regs
  trace := h.trace.trans g.trace
  clock := h.clock.trans g.clock
  sticky := fun he => by
    obtain ⟨h1, h2⟩ := h.sticky he
    obtain ⟨g1, g2⟩ := g.sticky (h1 ▸ he)
    exact ⟨g1.trans h1, g2.trans h2⟩

/-- An update that leaves the five alone. -/
theorem Onward.of_eq {s t : State} (hc : t.cfg = s.cfg) (hr : t.regs = s.regs) (ht : t.trace = s.trace)
    (he : t.env = s.env) (hx : t.err = s.err) (hy : t.errOp = s.errOp) : Onward s t where
  cfg := hc
  regs := hr
  trace := ht ▸ List.prefix_refl _
  clock := by rw [he]
  sticky := fun _ => ⟨hx, hy⟩

theorem Onward.refl (s : State) : Onward s s := .of_eq rfl rfl rfl rfl rfl rfl

/-- Error entry latches the first error only (10_state.md R31, 60_exceptions.md R245). -/
theorem onward_raise (e : ErrClass) (s : State) : Onward s (s.raise e) where
  cfg := rfl
  regs := rfl
  trace := List.prefix_refl _
  clock := le_refl _
  sticky := fun he => ⟨if_neg he, if_neg he⟩

theorem onward_complete (s : State) : Onward s s.complete := .of_eq rfl rfl rfl rfl rfl rfl

theorem onward_enter (q : Seq) (s : State) : Onward s (s.enter q) := .of_eq rfl rfl rfl rfl rfl rfl

theorem onward_toFrames (s : State) : Onward s s.captureNow.toFrames := by
  unfold State.toFrames
  split_ifs <;> exact .of_eq rfl rfl rfl rfl rfl rfl

theorem onward_playCheck (s : State) : Onward s s.playCheck := by
  have latched : Onward s { s with periodLatched := s.regs.periodMs } := .of_eq rfl rfl rfl rfl rfl rfl
  unfold State.playCheck
  dsimp only
  split_ifs
  · exact latched.trans (onward_raise _ _)
  · exact latched.trans (onward_raise _ _)
  · exact latched.trans (onward_raise _ _)
  · exact .of_eq rfl rfl rfl rfl rfl rfl

theorem onward_pixelStep (r col : Nat) (s : State) : Onward s (s.pixelStep r col) := by
  unfold State.pixelStep
  dsimp only
  rw [storePixel_eq]
  split <;> exact .of_eq rfl rfl rfl rfl rfl rfl

theorem onward_afterPosition (s : State) : Onward s s.afterPosition := by
  cases hq : s.seq <;> simp only [State.afterPosition, hq]
  case cmd => exact onward_complete s
  case init k => split_ifs; exacts [onward_enter _ s, onward_complete s]
  case playInit k => split_ifs; exacts [onward_enter _ s, onward_toFrames s]
  case playFrame i ph =>
    cases ph
    case sleep => exact .of_eq rfl rfl rfl rfl rfl rfl
    all_goals exact onward_enter _ s
  case teardown => exact onward_complete s
  all_goals exact Onward.refl s

theorem onward_internalStep (s : State) : Onward s s.internalStep := by
  have stopped : Onward s s.stopped := .of_eq rfl rfl rfl rfl rfl rfl
  cases hq : s.seq <;> simp only [State.internalStep, hq]
  case idle => exact Onward.refl s
  case cmd => exact onward_complete s
  case init k => exact onward_enter _ s
  case resample r col => exact onward_pixelStep r col s
  case playCheck => exact onward_playCheck s
  case playInit k =>
    unfold State.emptyPass
    split_ifs
    · exact stopped
    · exact Onward.refl s
    · exact onward_enter _ s
  case playFrame i ph =>
    cases ph
    case col =>
      show Onward s s.boundary
      unfold State.boundary
      split_ifs
      · exact stopped
      · exact .of_eq rfl rfl rfl rfl rfl rfl
    case advance => exact .of_eq rfl rfl rfl rfl rfl rfl
    all_goals exact onward_enter _ s
  case teardown => exact .of_eq rfl rfl rfl rfl rfl rfl

/-- A call that has ended or still waits appended its event at most once and moved the clock forward. -/
theorem onward_answered {n : Nat} (p : Event) (s : State) (hn : s.env.nowNs ≤ n) : Onward s (s.answered p n) :=
  ⟨rfl, rfl, List.prefix_append _ _, hn, fun _ => ⟨rfl, rfl⟩⟩

theorem onward_primEffect (p : Event) (s : State) : Onward s (primEffect p s) := by
  obtain ⟨_, _, _, _, h, -⟩ := primEffect_eq p s
  rw [h]
  exact .of_eq rfl rfl rfl rfl rfl rfl

theorem onward_afterPrimitive (rest : List Event) (s : State) : Onward s (s.afterPrimitive rest) := by
  have setTodo : ∀ l, Onward s (s.setTodo l) := fun l => .of_eq rfl rfl rfl rfl rfl rfl
  cases rest with
  | nil => exact (setTodo _).trans (onward_afterPosition _)
  | cons p ps => exact setTodo _

/-- Every step of the running operation goes on. -/
theorem onward_seqStep (s : State) : Onward s s.seqStep := by
  cases ht : s.todo with
  | nil => exact seqStep_internal ht ▸ onward_internalStep s
  | cons p rest =>
    obtain ⟨n, hn, hs | hs | ⟨k, hs⟩⟩ := seqStep_calls ht <;> rw [hs]
    · exact ⟨rfl, rfl, List.prefix_append _ _, hn, fun _ => ⟨rfl, rfl⟩⟩
    · exact ((onward_answered p s hn).trans (onward_primEffect p _)).trans (onward_afterPrimitive rest _)
    · have noted : Onward (s.answered p n) ((s.answered p n).noteFailure p k) := .of_eq rfl rfl rfl rfl rfl rfl
      exact ((onward_answered p s hn).trans noted).trans (onward_raise _ _)

/-- Every request goes on, whatever becomes of it. -/
theorem onward_issue {s t : State} {code : Byte} (h : s.issue code = .next t) : Onward s t := by
  have accept : Onward s (s.accept code) := .of_eq rfl rfl rfl rfl rfl rfl
  have raise : ∀ e, Onward s ((s.accept code).raise e) := fun e => accept.trans (onward_raise e _)
  obtain ⟨u, hu, hc⟩ := issue_cases code s
  obtain rfl : u = t := by simpa [hu] using h
  rcases hc with rfl | ⟨-, -, rfl⟩ | ⟨-, -, rfl⟩ | ⟨-, -, rfl | ⟨gs, -, rfl⟩ | rfl | rfl | rfl | rfl⟩
  · exact .refl _
  · exact .of_eq rfl rfl rfl rfl rfl rfl
  · exact .of_eq rfl rfl rfl rfl rfl rfl
  · exact raise _
  · cases gs with
    | none => exact raise _
    | some gs =>
      unfold State.startCommand
      dsimp only
      split_ifs
      · exact .of_eq rfl rfl rfl rfl rfl rfl
      · exact raise _
  · unfold State.startOpenInit
    split_ifs
    · exact raise _
    · exact accept.trans (onward_enter _ _)
  · unfold State.startPlay
    split_ifs
    · exact raise _
    · exact accept.trans (onward_enter _ _)
  · unfold State.startResample
    split_ifs
    · exact .of_eq rfl rfl rfl rfl rfl rfl
    · exact raise _
  · exact .of_eq rfl rfl rfl rfl rfl rfl

/-- A step goes on, but for the two host moves that write what the block does not: the reset input and the write of a
latch. -/
theorem step_onward {s t : State} (h : step s = .next t) :
    Onward s t ∨
      (∃ rest, s.script = .host .assertReset :: rest ∧ t = (s.setScript s.script.tail).assertReset) ∨
      ∃ num v rest, s.script = .host (.writeReg num v) :: rest ∧ t = (s.setScript s.script.tail).writeLatch num v := by
  have turn : Onward s (s.setScript s.script.tail) := .of_eq rfl rfl rfl rfl rfl rfl
  rcases step_cases h with ⟨v, rfl⟩ | ⟨num, v, rest, -, hs, ht⟩ | ⟨sp, a, v, -, -, rfl⟩ | hreset | ⟨code, hc⟩ |
    ⟨-, rfl⟩ | rfl | ⟨code, held, -, -, -, hc⟩
  · exact .inl (.of_eq rfl rfl rfl rfl rfl rfl)
  · exact .inr (.inr ⟨num, v, rest, hs, ht⟩)
  · exact .inl (by cases sp <;> exact .of_eq rfl rfl rfl rfl rfl rfl)
  · exact .inr (.inl hreset)
  · exact .inl (turn.trans (onward_issue hc))
  · exact .inl (turn.trans (onward_seqStep _))
  · exact .inl turn
  · have taken : Onward s { s.setScript s.script.tail with held := held } := .of_eq rfl rfl rfl rfl rfl rfl
    exact .inl (taken.trans (onward_issue hc))

/-- A host write of a register changes the latches at most, and none while busy (10_state.md R33). -/
theorem writeLatch_eq (num : Nat) (v : Word) (s : State) :
    s.writeLatch num v = { s with regs := if s.busy then s.regs else s.regs.write num v } := by
  unfold State.writeLatch
  split_ifs <;> rfl

/-- A number above the last latch names none (10_state.md R33). -/
theorem Latches.write_above {num : Nat} (h : 0x0C < num) (l : Latches) (v : Word) : l.write num v = l := by
  obtain ⟨k, rfl⟩ := Nat.exists_eq_add_of_le' h
  rfl

/-- Settles O43: error entry keeps the first error, and nothing else writes it. -/
theorem errorIsSticky : Obligations.ErrorIsSticky := by
  intro s t he h hreset
  rcases step_onward h with ho | ⟨rest, hs, -⟩ | ⟨num, v, -, -, rfl⟩
  · exact ho.sticky he
  · exact absurd hs (hreset rest)
  · rw [writeLatch_eq]
    exact ⟨rfl, rfl⟩

/-- Settles O44: a call appends its event, and no other operation writes the trace. -/
theorem traceOnlyGrows : Obligations.TraceOnlyGrows := by
  intro s t h hreset
  rcases step_onward h with ho | ⟨rest, hs, -⟩ | ⟨num, v, -, -, rfl⟩
  · exact ho.trace
  · exact absurd hs (hreset rest)
  · rw [writeLatch_eq]
    exact List.prefix_refl _

/-- Settles O45: the block goes on with the latches as they are, so the move was the host's. -/
theorem latchesChangeOnlyByTheHost : Obligations.LatchesChangeOnlyByTheHost := by
  intro s t h hne
  rcases step_onward h with ho | ⟨rest, hs, -⟩ | ⟨num, v, rest, hs, rfl⟩
  · exact absurd ho.regs hne
  · exact ⟨rest, .inl hs⟩
  · rw [writeLatch_eq] at hne ⊢
    cases hb : s.busy with
    | true => simp [hb] at hne
    | false =>
      have hnum : num ≤ 0x0C := by
        by_contra hlt
        simp [hb, Latches.write_above (not_le.1 hlt)] at hne
      exact ⟨rest, .inr ⟨num, v, hnum, hs, rfl, by simp [hb]⟩⟩

/-- Settles O47: the reset input keeps the configuration too. -/
theorem configurationIsConstant : Obligations.ConfigurationIsConstant := by
  intro s t h
  rcases step_onward h with ho | ⟨_, -, rfl⟩ | ⟨num, v, _, -, rfl⟩
  · exact ho.cfg
  · rfl
  · rw [writeLatch_eq]
    rfl

/-- Settles O48: an answer moves the clock forward, and the reset input keeps it. -/
theorem clockNeverDecreases : Obligations.ClockNeverDecreases := by
  intro s t h
  rcases step_onward h with ho | ⟨_, -, rfl⟩ | ⟨num, v, _, -, rfl⟩
  · exact ho.clock
  · exact le_refl s.env.nowNs
  · rw [writeLatch_eq]
    exact le_refl s.env.nowNs

end Sys2Proof.Machine
end

section
/-! The level of the mode line decides nothing (10_state.md R30): every operation of the block commutes with a change
of `dc`, up to the level it leaves. -/

namespace Sys2Proof.Machine

/-- The state with another level of the mode line. -/
def State.setDc (v : Bool) (s : State) : State := { s with dc := v }

/-- An update of the state that reads `dc` for nothing: on states that differ in `dc` only it gives states that differ
in `dc` only. -/
def DcBlind (f : State → State) : Prop := ∀ (s : State) (v : Bool), ∃ d, f (s.setDc v) = (f s).setDc d

theorem DcBlind.comp {f g : State → State} (hg : DcBlind g) (hf : DcBlind f) : DcBlind (g ∘ f) := fun s v => by
  obtain ⟨d, hd⟩ := hf s v
  obtain ⟨d', hd'⟩ := hg (f s) d
  exact ⟨d', (congrArg g hd).trans hd'⟩

theorem dcBlind_id : DcBlind id := fun _ v => ⟨v, rfl⟩

theorem dcBlind_raise (e : ErrClass) : DcBlind (State.raise e) := fun _ v => ⟨v, rfl⟩

theorem dcBlind_complete : DcBlind State.complete := fun _ v => ⟨v, rfl⟩

theorem dcBlind_teardown : DcBlind State.teardown := fun _ v => ⟨v, rfl⟩

theorem dcBlind_stopped : DcBlind State.stopped := fun _ v => ⟨v, rfl⟩

theorem dcBlind_setTodo (l : List Event) : DcBlind (State.setTodo l) := fun _ v => ⟨v, rfl⟩

theorem dcBlind_enter (q : Seq) : DcBlind (State.enter q) := fun _ v => ⟨v, by cases q <;> rfl⟩

theorem dcBlind_toFrames : DcBlind (fun s => s.captureNow.toFrames) := fun s v => ⟨v, by
  unfold State.toFrames
  rw [apply_ite (State.setDc v)]
  rfl⟩

theorem dcBlind_playCheck : DcBlind State.playCheck := fun s v => ⟨v, by
  unfold State.playCheck
  dsimp only
  simp only [apply_ite (State.setDc v)]
  rfl⟩

theorem dcBlind_pixelStep (r col : Nat) : DcBlind (State.pixelStep r col) := fun s v => ⟨v, by
  unfold State.pixelStep
  dsimp only
  rw [show (s.setDc v).cfg = s.cfg from rfl]
  cases nextPixel s.cfg r col <;> rfl⟩

theorem dcBlind_afterPosition : DcBlind State.afterPosition := by
  intro s v
  have hv : (s.setDc v).seq = s.seq := rfl
  cases hq : s.seq <;> simp only [State.afterPosition, hv, hq]
  case cmd => exact dcBlind_complete s v
  case init k => split_ifs; exacts [dcBlind_enter _ s v, dcBlind_complete s v]
  case playInit k => split_ifs; exacts [dcBlind_enter _ s v, dcBlind_toFrames s v]
  case playFrame i ph =>
    cases ph
    case sleep => exact ⟨v, rfl⟩
    all_goals exact dcBlind_enter _ s v
  case teardown => exact dcBlind_complete s v
  all_goals exact dcBlind_id s v

theorem dcBlind_internalStep : DcBlind State.internalStep := by
  intro s v
  have hv : (s.setDc v).seq = s.seq := rfl
  cases hq : s.seq <;> simp only [State.internalStep, hv, hq]
  case idle => exact dcBlind_id s v
  case cmd => exact dcBlind_complete s v
  case init k => exact dcBlind_enter _ s v
  case resample r col => exact dcBlind_pixelStep r col s v
  case playCheck => exact dcBlind_playCheck s v
  case playInit k =>
    split_ifs
    · refine ⟨v, ?_⟩
      unfold State.emptyPass
      rw [apply_ite (State.setDc v)]
      rfl
    · exact dcBlind_enter _ s v
  case playFrame i ph =>
    cases ph
    case col =>
      refine ⟨v, ?_⟩
      show (s.setDc v).boundary = s.boundary.setDc v
      unfold State.boundary
      rw [apply_ite (State.setDc v)]
      rfl
    case advance => exact ⟨v, rfl⟩
    all_goals exact dcBlind_enter _ s v
  case teardown => exact dcBlind_teardown s v

theorem dcBlind_afterPrimitive (rest : List Event) : DcBlind (State.afterPrimitive rest) := by
  cases rest with
  | nil => exact dcBlind_afterPosition.comp (dcBlind_setTodo [])
  | cons p ps => exact dcBlind_setTodo (p :: ps)

/-- The effect of a primitive overwrites `dc` or leaves it. -/
theorem dcBlind_primEffect (p : Event) : DcBlind (primEffect p) := fun s v => by
  cases p with
  | level line w =>
    cases line
    · exact ⟨w, rfl⟩
    · exact ⟨v, rfl⟩
  | _ => exact ⟨v, rfl⟩

theorem beginCall_setDc (p : Event) (s : State) (v : Bool) : (s.setDc v).beginCall p = (s.beginCall p).setDc v := by
  unfold State.beginCall
  rw [show (s.setDc v).inFlight = s.inFlight from rfl]
  cases s.inFlight <;> rfl

/-- A call has the same outcome at either level of the mode line. -/
theorem dcBlind_seqStep : DcBlind State.seqStep := by
  intro s v
  have hv : (s.setDc v).todo = s.todo := rfl
  cases ht : s.todo with
  | nil => rw [seqStep_internal ht, seqStep_internal (hv.trans ht)]; exact dcBlind_internalStep s v
  | cons p rest =>
    have hw : ((s.beginCall p).setDc v).inFlight = (s.beginCall p).inFlight := rfl
    have he : (s.setDc v).env = s.env := rfl
    unfold State.seqStep State.call
    simp only [hv, ht, beginCall_setDc, hw, he]
    cases answerOf p s.env.reply.kind _ with
    | pending => exact ⟨v, rfl⟩
    | returned =>
      exact (dcBlind_afterPrimitive rest).comp (dcBlind_primEffect p) ((s.beginCall p).setEnv _).land v
    | failed k => exact dcBlind_raise .io (((s.beginCall p).setEnv _).land.noteFailure p k) v

/-- What an accepted operation starts. -/
theorem dcBlind_startOf (s : State) (i : Instr) : DcBlind (startOf s i) := by
  have command : ∀ gs, DcBlind (State.startCommand gs) := fun gs t v => by
    cases gs with
    | none => exact dcBlind_raise _ t v
    | some gs =>
      refine ⟨v, ?_⟩
      unfold State.startCommand
      dsimp only
      rw [apply_ite (State.setDc v)]
      rfl
  have openInit : DcBlind State.startOpenInit := fun t v => ⟨v, by
    unfold State.startOpenInit
    rw [apply_ite (State.setDc v)]
    rfl⟩
  have play : DcBlind State.startPlay := fun t v => ⟨v, by
    unfold State.startPlay
    rw [apply_ite (State.setDc v)]
    rfl⟩
  have resample : DcBlind State.startResample := fun t v => ⟨v, by
    unfold State.startResample
    rw [apply_ite (State.setDc v)]
    rfl⟩
  cases hg : groupsRequested s i with
  | some gs => simpa only [startOf, hg] using command gs
  | none =>
    cases i
    case openInit => exact openInit
    case play => exact play
    case resample => exact resample
    case close => exact dcBlind_teardown
    case stop => exact dcBlind_id
    all_goals cases hg

theorem dcBlind_request {start : State → State} (code : Byte) (h : DcBlind start) :
    DcBlind (State.request code start) := by
  intro s v
  have he : (s.setDc v).err = s.err := rfl
  have hb : (s.setDc v).busy = s.busy := rfl
  unfold State.request
  rw [he, hb]
  split_ifs
  · exact ⟨v, rfl⟩
  · exact ⟨v, rfl⟩
  · exact h (s.accept code) v

/-- A request is decoded and runs without a look at `dc`. -/
theorem issue_setDc {s t : State} {code : Byte} (v : Bool) (h : s.issue code = .next t) :
    ∃ d, (s.setDc v).issue code = .next (t.setDc d) := by
  unfold State.issue at h ⊢
  cases hd : decodeOp code with
  | rejected why =>
    simp only [hd, Host.Outcome.next.injEq] at h ⊢
    subst h
    exact dcBlind_request code (dcBlind_raise .usage) s v
  | instr i =>
    simp only [hd] at h ⊢
    by_cases hi : i = .stop
    · subst hi
      refine ⟨v, ?_⟩
      rw [exec_stop] at h ⊢
      injection h with h
      rw [← h, apply_ite (State.setDc v)]
      rfl
    · have hstart : startOf (s.setDc v) i = startOf s i := by cases i <;> rfl
      rw [exec_request hi] at h ⊢
      injection h with h
      obtain ⟨d, hd⟩ := dcBlind_request (encodeOp i) (dcBlind_startOf s i) s v
      exact ⟨d, by rw [hstart, hd, h]⟩

/-- A turn of the block does not look at `dc`. -/
theorem blockTurn_setDc {s t : State} (v : Bool) (h : s.blockTurn = .next t) :
    ∃ d, (s.setDc v).blockTurn = .next (t.setDc d) := by
  unfold State.blockTurn at h ⊢
  rw [show (s.setDc v).busy = s.busy from rfl, show (s.setDc v).err = s.err from rfl,
    show (s.setDc v).held = s.held from rfl]
  split_ifs at h ⊢
  · injection h with h
    obtain ⟨d, hd⟩ := dcBlind_seqStep s v
    exact ⟨d, by rw [hd, h]⟩
  · injection h with h
    exact ⟨v, by rw [h]⟩
  · cases hh : s.held with
    | nil =>
      simp only [hh, Host.Outcome.next.injEq] at h ⊢
      exact ⟨v, by rw [h]⟩
    | cons code rest =>
      simp only [hh] at h ⊢
      exact issue_setDc v h

/-- Of the registers only STATUS shows `dc`. -/
theorem readReg_setDc {num : Nat} (h : num ≠ 0x10) (s : State) (v : Bool) :
    (s.setDc v).readReg num = s.readReg num := by
  unfold State.readReg
  split <;> first
    | rfl
    | exact absurd rfl h

/-- A host move other than a read of STATUS does not look at `dc`. -/
theorem hostMove_setDc {m : HostMove} {s t : State} (v : Bool) (hm : m ≠ .readReg 0x10)
    (h : s.hostMove m = .next t) : ∃ d, (s.setDc v).hostMove m = .next (t.setDc d) := by
  cases m with
  | writeReg num w =>
    simp only [State.hostMove] at h ⊢
    split_ifs at h ⊢
    · exact issue_setDc v h
    · injection h with h
      refine ⟨v, ?_⟩
      rw [← h]
      unfold State.writeLatch
      rw [apply_ite (State.setDc v)]
      rfl
  | readReg num =>
    simp only [State.hostMove, Host.Outcome.next.injEq] at h ⊢
    refine ⟨v, ?_⟩
    rw [← h, readReg_setDc fun e => hm (e ▸ rfl)]
    rfl
  | writeMem sp a w =>
    have hb : (s.setDc v).busy = s.busy := rfl
    have hc : (s.setDc v).cfg = s.cfg := rfl
    simp only [State.hostMove, hb, hc] at h ⊢
    split_ifs at h ⊢
    injection h with h
    refine ⟨v, ?_⟩
    rw [← h]
    cases sp <;> rfl
  | readMem sp a =>
    have hc : (s.setDc v).cfg = s.cfg := rfl
    simp only [State.hostMove, hc] at h ⊢
    split_ifs at h ⊢
    injection h with h
    refine ⟨v, ?_⟩
    rw [← h]
    cases sp <;> rfl
  | assertReset =>
    simp only [State.hostMove, Host.Outcome.next.injEq] at h ⊢
    exact ⟨t.dc, by rw [← h]; rfl⟩

/-- Settles O49: whoever makes the turn, the level of the mode line decides nothing. -/
theorem modeLineIsNeverRead : Obligations.ModeLineIsNeverRead := by
  intro s t v h hread
  show ∃ d, step (s.setDc v) = .next (t.setDc d)
  unfold step at h ⊢
  rw [show (s.setDc v).script = s.script from rfl]
  cases hs : s.script with
  | nil => exact blockTurn_setDc v (by simpa only [hs] using h)
  | cons turn rest =>
    cases turn with
    | block => exact blockTurn_setDc v (by simpa only [hs] using h)
    | host m =>
      have hm : m ≠ .readReg 0x10 := fun e => hread rest (e ▸ hs)
      exact hostMove_setDc v hm (by simpa only [hs] using h)

end Sys2Proof.Machine
end

section
/-! The host port: what a read returns and what a write changes (10_state.md R23, R28, R31 to R33). -/

namespace Sys2Proof.Machine

/-- A step in which the host moves is that move. -/
theorem step_host {s : State} {m : HostMove} {rest : List Turn} (h : s.script = .host m :: rest) :
    step s = (s.setScript rest).hostMove m := by
  simp only [step, h]

/-- A host read of a register changes the read data and the script only. -/
theorem step_readReg {s : State} {num : Nat} {rest : List Turn} (h : s.script = .host (.readReg num) :: rest) :
    step s = .next { s with script := rest, rdata := s.readReg num } :=
  step_host h

/-- A host write of a register other than `OP` is a write of the latches. -/
theorem step_writeReg {s : State} {num : Nat} {v : Word} {rest : List Turn} (hnum : num ≠ 0x1F)
    (h : s.script = .host (.writeReg num v) :: rest) :
    step s = .next { s with script := rest, regs := if s.busy then s.regs else s.regs.write num v } := by
  rw [step_host h]
  have hop : num ≠ opRegister := hnum
  simp only [State.hostMove, if_neg hop, writeLatch_eq]
  rfl

/-! ### Registers -/

/-- Numbers outside the list of R33 read 0. -/
theorem readReg_reserved {num : Nat} (s : State) (h : 0x0C < num) (h10 : num ≠ 0x10) (h11 : num ≠ 0x11)
    (h12 : num ≠ 0x12) (h1F : num ≠ 0x1F) : s.readReg num = 0 := by
  unfold State.readReg
  split <;> first
    | rfl
    | omega

/-- A latch that was written reads as the value's low bits (10_state.md R23). -/
theorem readReg_write_same {num : Nat} (s : State) (v : Word) (h : num ≤ 0x0C) :
    (State.readReg { s with regs := s.regs.write num v } num).toNat = v.toNat % 2 ^ latchWidth num := by
  have hv := v.isLt
  interval_cases num <;> simp [State.readReg, Latches.write, latchWidth] <;> omega

/-- A write of a latch does not show in another one. -/
theorem readReg_write_other {num num' : Nat} (s : State) (v : Word) (h : num ≤ 0x0C) (h' : num' ≤ 0x0C)
    (hne : num' ≠ num) : State.readReg { s with regs := s.regs.write num v } num' = s.readReg num' := by
  interval_cases num <;> interval_cases num' <;> first
    | rfl
    | exact absurd rfl hne

/-! ### STATUS -/

/-- The number six flags make has each flag at its bit and nothing above (10_state.md R28). -/
theorem testBit_flags (b0 b1 b2 b3 b4 b5 : Bool) :
    let n := b0.toNat + 2 * b1.toNat + 4 * b2.toNat + 8 * b3.toNat + 16 * b4.toNat + 32 * b5.toNat
    n < 64 ∧ n.testBit 0 = b0 ∧ n.testBit 1 = b1 ∧ n.testBit 2 = b2 ∧ n.testBit 3 = b3 ∧ n.testBit 4 = b4 ∧
      n.testBit 5 = b5 := by
  revert b0 b1 b2 b3 b4 b5
  decide

/-- A host read of STATUS, bit by bit. -/
theorem readReg_status_bits (s : State) :
    (s.readReg 0x10).getLsbD 0 = s.busy ∧ (s.readReg 0x10).getLsbD 1 = s.tpOpen ∧
      (s.readReg 0x10).getLsbD 2 = s.halted ∧ (s.readReg 0x10).getLsbD 3 = s.stopReq ∧
      (s.readReg 0x10).getLsbD 4 = s.dc ∧ (s.readReg 0x10).getLsbD 5 = s.rst ∧
      ∀ k, 6 ≤ k → (s.readReg 0x10).getLsbD k = false := by
  obtain ⟨hlt, h0, h1, h2, h3, h4, h5⟩ := testBit_flags s.busy s.tpOpen s.halted s.stopReq s.dc s.rst
  have hbit : ∀ k, (s.readReg 0x10).getLsbD k = (s.busy.toNat + 2 * s.tpOpen.toNat + 4 * s.halted.toNat +
      8 * s.stopReq.toNat + 16 * s.dc.toNat + 32 * s.rst.toNat).testBit k := by
    intro k
    have hnat : (s.readReg 0x10).toNat = s.busy.toNat + 2 * s.tpOpen.toNat + 4 * s.halted.toNat +
        8 * s.stopReq.toNat + 16 * s.dc.toNat + 32 * s.rst.toNat := by
      show (BitVec.setWidth 32 s.status).toNat = _
      rw [BitVec.toNat_setWidth, State.status, BitVec.toNat_ofNat]
      omega
    rw [← BitVec.testBit_toNat, hnat]
  refine ⟨(hbit 0).trans h0, (hbit 1).trans h1, (hbit 2).trans h2, (hbit 3).trans h3, (hbit 4).trans h4,
    (hbit 5).trans h5, fun k hk => (hbit k).trans (Nat.testBit_lt_two_pow (hlt.trans_le ?_))⟩
  exact Nat.pow_le_pow_right (n := 2) (by norm_num) hk

/-! ### The obligations -/

/-- Settles O54: the six flags and the zeros above them are the bits of the read data. -/
theorem statusRegisterReads : Obligations.StatusRegisterReads := by
  intro s rest h
  obtain ⟨h0, h1, h2, h3, h4, h5, h6⟩ := readReg_status_bits s
  refine ⟨_, step_readReg h, rfl, h0, h1, ?_, h3, h4, h5, h6⟩
  show (s.readReg 0x10).getLsbD 2 = true ↔ _
  rw [h2]
  exact decide_eq_true_iff

/-- Settles O55: a reserved number reads 0, and a write that names no free latch changes none. -/
theorem reservedAndLockedRegisters : Obligations.ReservedAndLockedRegisters := by
  intro s rest num v
  refine ⟨fun hlt h10 h11 h12 h1F h => ?_, fun hlocked h1F h => ?_⟩
  · rw [step_readReg h, readReg_reserved s hlt h10 h11 h12 h1F]
  · rw [step_writeReg h1F h]
    rcases hlocked with hlt | hb
    · rw [Latches.write_above hlt, ite_self]
    · rw [if_pos hb]

/-- Settles O56: latch by latch, the written one keeps its low bits and the others stay. -/
theorem latchWriteReadsBack : Obligations.LatchWriteReadsBack := by
  intro s rest num v hb hnum h
  have hstep := step_writeReg (by omega) h
  rw [if_neg (by simp [hb])] at hstep
  exact ⟨_, hstep, rfl, readReg_write_same { s with script := rest } v hnum, fun num' hnum' hne =>
    readReg_write_other { s with script := rest } v hnum hnum' hne⟩

/-- Settles O57: a read is of the register or byte as it stands, in every state. -/
theorem hostReadsChangeNothing : Obligations.HostReadsChangeNothing := by
  intro s rest
  refine ⟨fun num v hmem h => ?_, fun sp a ha h => ?_⟩
  · have hv : s.readReg num = v := by
      simp only [List.mem_cons, Prod.mk.injEq, List.not_mem_nil, or_false] at hmem
      rcases hmem with ⟨rfl, rfl⟩ | ⟨rfl, rfl⟩ | ⟨rfl, rfl⟩ | ⟨rfl, rfl⟩ | ⟨rfl, rfl⟩ | ⟨rfl, rfl⟩ | ⟨rfl, rfl⟩ |
        ⟨rfl, rfl⟩ | ⟨rfl, rfl⟩ | ⟨rfl, rfl⟩ | ⟨rfl, rfl⟩ | ⟨rfl, rfl⟩ | ⟨rfl, rfl⟩ | ⟨rfl, rfl⟩ | ⟨rfl, rfl⟩ <;> rfl
    rw [step_readReg h, hv]
  · rw [step_host h]
    have hin : inMemory (s.setScript rest).cfg sp a = true := decide_eq_true ha
    simp only [State.hostMove, hin, if_true]
    cases sp <;> rfl

end Sys2Proof.Machine
end

section
/-! Requests held and taken, a failed transport, and the state after reset (10_state.md R21, R47, R49). -/

namespace Sys2Proof.Machine

/-- Settles O9: such a request is an admission, and a busy block holds it. -/
theorem busyHoldsRequests : Obligations.BusyHoldsRequests := by
  intro i s hi hb he
  rw [exec_request hi, request_busy he hb]
  rfl

/-- Settles O10: the turn of an idle block takes the oldest code and decodes it. -/
theorem heldRequestStartsWhenIdle : Obligations.HeldRequestStartsWhenIdle := by
  intro s code rest i hb he hheld hd hu
  rw [step_of_undisturbed hu]
  simp [State.blockTurn, State.issue, hb, he, hheld, hd, State.setScript]

/-- Open, level and write are the primitives that fail when the environment says so (60_exceptions.md R243). -/
theorem answerOf_fail {p : Event}
    (hp : (∃ hz mode, p = .openCh hz mode) ∨ (∃ line v, p = .level line v) ∨ ∃ l, p = .write l) (k : Nat)
    (due : Bool) : answerOf p (.fail k) due = .failed k := by
  rcases hp with ⟨hz, mode, rfl⟩ | ⟨line, v, rfl⟩ | ⟨l, rfl⟩ <;> rfl

/-- A call that failed has its event in the trace once, and what had left of a write is kept. -/
theorem call_fail {s : State} {p : Event} {k : Nat}
    (hp : (∃ hz mode, p = .openCh hz mode) ∨ (∃ line v, p = .level line v) ∨ ∃ l, p = .write l)
    (hr : s.env.reply.kind = .fail k) :
    s.call p = .failed ((s.answered p (s.env.nowNs + s.env.reply.dtNs)).noteFailure p k) := by
  unfold State.call
  simp only [hr, answerOf_fail hp, beginCall_land]

/-- Settles O41: the call fails, and error entry is the rest of the step. -/
theorem transportFailureRaisesIoError : Obligations.TransportFailureRaisesIoError := by
  intro s p rest k hb he ht hp hr hu
  rw [step_busy (n := 0) hu hb]
  have hcall := call_fail (s := s.setScript s.script.tail) hp hr
  have htodo : (s.setScript s.script.tail).todo = p :: rest := ht
  unfold State.seqStep
  simp only [htodo, hcall]
  rw [raise_eq _ (by simpa [State.answered] using he)]
  cases p <;> rfl

/-- Settles O50: the reset state is idle, its memories and its trace are empty, the configuration is a production
one. -/
theorem invariantsHoldAtReset : Obligations.InvariantsHoldAtReset := by
  refine ⟨?_, ⟨fun sp => ?_, fun sp => ?_⟩, rfl⟩
  · exact controlInv_assertReset (s := State.reset) (Config.wf_production _ _ _)
  · cases sp <;> rfl
  · cases sp <;> rfl

end Sys2Proof.Machine
end

section
/-! The panel commands on the tagged byte stream (10_state.md R46): a valid command adds its opcode at the command
level and its parameter bytes at the data level. -/

namespace Sys2Proof.Machine

/-- The tagged bytes of a command: its opcode at the command level, its parameters at the data level
(30_encoding.md R90, R93). -/
def taggedCommand (c : Config) (op : Byte) (params : List Byte) : List (Bool × Byte) :=
  (c.dcCommandLevel, op) :: params.map (fun b => (!c.dcCommandLevel, b))

/-- A valid command runs to its end and adds its tagged bytes, with a data group exactly if it has parameters. -/
theorem addsTaggedBytes_of_valid {s : State} {i : Instr} {k : Command} (h : FairFor 4 s) (ho : s.tpOpen = true)
    (hi : i ≠ .stop) (hg : groupsRequested s i = some (encode s.cfg k)) (hv : validCommand s.cfg k = true) :
    AddsTaggedBytes i (taggedCommand s.cfg (opcodeOf k) (paramBytes s.cfg k)) s := by
  have hg' : groupsRequested s i = some (some (groupsOf s.cfg k)) := by rw [hg, encode, if_pos hv]
  by_cases hp : paramBytes s.cfg k = []
  · have hrun : CommandCompletes i (opcodeCalls s.cfg (opcodeOf k)) s.cfg.dcCommandLevel s :=
      command_runs (h.mono (show 2 ≤ 4 by decide)) hi hg' ho (emission_plain hp) (effects_opcode _ _)
    exact hrun.addsTaggedBytes h.ready.noError fun dc => by rw [taggedBytes_opcode, hp]; rfl
  · have hrun : CommandCompletes i (opcodeCalls s.cfg (opcodeOf k) ++ dataCalls s.cfg (paramBytes s.cfg k))
        (!s.cfg.dcCommandLevel) s :=
      command_runs h hi hg' ho (emission_params hp) (effects_opcode_data _ _ _)
    refine hrun.addsTaggedBytes h.ready.noError fun dc => ?_
    rw [taggedBytes_append, taggedBytes_opcode, taggedBytes_data]
    simp [taggedCommand]

/-! ### Valid operands -/

/-- The four curves have the table's codes (41_commands_param.md R141, R142). -/
theorem gammaCode_of_curve {t : GammaTable} {curve code : Byte}
    (h : (curve = 10 ∧ code = t.g10) ∨ (curve = 18 ∧ code = t.g18) ∨ (curve = 22 ∧ code = t.g22) ∨
      (curve = 25 ∧ code = t.g25)) : gammaCode t curve = some code := by
  rcases h with ⟨rfl, rfl⟩ | ⟨rfl, rfl⟩ | ⟨rfl, rfl⟩ | ⟨rfl, rfl⟩ <;> rfl

/-- The three depths have their codes (41_commands_param.md R164, R165). -/
theorem colorCode_of_bpp {bpp code : Byte}
    (h : (bpp = 12 ∧ code = 0x03) ∨ (bpp = 16 ∧ code = 0x05) ∨ (bpp = 18 ∧ code = 0x06)) :
    colorCode bpp = some code := by
  rcases h with ⟨rfl, rfl⟩ | ⟨rfl, rfl⟩ | ⟨rfl, rfl⟩ <;> rfl

/-- A range is valid when its end is in range and its begin not above it (41_commands_param.md R144). -/
theorem validRange_of_le {first last : Half} {n : Nat} (hlast : last.toNat ≤ n) (hle : first.toNat ≤ last.toNat) :
    validRange first last n = true := by
  simp [validRange, hlast, hle, hle.trans hlast]

/-- The limits on the bytes of PAL are the command's check (41_commands_param.md R157). -/
theorem validCommand_palette {s : State} (h : paletteOk s) : validCommand s.cfg s.paletteCommand = true := by
  obtain ⟨hr, hg, hb⟩ := h
  simpa [State.paletteCommand, validCommand, State.readRange, redBlueOk, greenOk] using ⟨⟨hr, hg⟩, hb⟩

/-- Ranges one after the other are one range. -/
theorem readRange_append (s : State) (sp : Space) (a m n : Nat) :
    s.readRange sp a m ++ s.readRange sp (a + m) n = s.readRange sp a (m + n) := by
  simp [State.readRange, List.range_add, Nat.add_assoc]

/-- setPalette's parameters are the 128 bytes of PAL in address order (41_commands_param.md R155). -/
theorem paramBytes_palette (s : State) :
    paramBytes s.cfg s.paletteCommand = (List.range 128).map (fun j => s.readByte .pal j) := by
  have h1 := readRange_append s .pal 0 32 64
  have h2 := readRange_append s .pal 0 96 32
  simp only [Nat.zero_add] at h1 h2
  show s.readRange .pal 0 32 ++ s.readRange .pal 32 64 ++ s.readRange .pal 96 32 = _
  rw [h1, h2]
  simp only [State.readRange, Nat.zero_add]

/-- writeMemory asks for its payload when it fits FB (41_commands_param.md R150). -/
theorem groupsRequested_writeMemory {s : State} (h : s.regs.argAddr.toNat + s.regs.argLen.toNat ≤ s.cfg.fbCap) :
    groupsRequested s .writeMemory = some (encode s.cfg (.writeMemory s.payload)) := by
  have hfits : s.payloadFits = true := by simpa [State.payloadFits] using h
  simp only [groupsRequested, hfits, if_true]

/-- Settles O59: each of the sixteen is a valid command, with the opcode and the parameters of its row. -/
theorem commandsAddTheirTaggedBytes : Obligations.CommandsAddTheirTaggedBytes := by
  intro s ho h
  have adds : ∀ {i : Instr} (k : Command), i ≠ .stop → groupsRequested s i = some (encode s.cfg k) →
      validCommand s.cfg k = true → AddsTaggedBytes i (taggedCommand s.cfg (opcodeOf k) (paramBytes s.cfg k)) s :=
    fun k hi hg hv => addsTaggedBytes_of_valid h ho hi hg hv
  refine ⟨fun i op hmem => ?_, fun code hc => ?_, fun hlast hle => ?_, fun hlast hle => ?_, fun hfit => ?_,
    fun hpal => ?_, ?_, fun code hc => ?_⟩
  · simp only [List.mem_cons, Prod.mk.injEq, List.not_mem_nil, or_false] at hmem
    rcases hmem with ⟨rfl, rfl⟩ | ⟨rfl, rfl⟩ | ⟨rfl, rfl⟩ | ⟨rfl, rfl⟩ | ⟨rfl, rfl⟩ | ⟨rfl, rfl⟩ | ⟨rfl, rfl⟩ |
      ⟨rfl, rfl⟩ | ⟨rfl, rfl⟩
    · exact adds .reset nofun rfl rfl
    · exact adds .sleepIn nofun rfl rfl
    · exact adds .sleepOut nofun rfl rfl
    · exact adds .invertOff nofun rfl rfl
    · exact adds .invertOn nofun rfl rfl
    · exact adds .displayOff nofun rfl rfl
    · exact adds .displayOn nofun rfl rfl
    · exact adds .tearingEffectOff nofun rfl rfl
    · exact adds .tearingEffectOn nofun rfl rfl
  · have hcode := gammaCode_of_curve hc
    have hp : paramBytes s.cfg (.setGamma s.regs.argCurve) = [code] := by simp [paramBytes, hcode]
    have hadds := adds (i := .setGamma) (.setGamma s.regs.argCurve) nofun rfl (by simp [validCommand, hcode])
    rwa [hp] at hadds
  · exact adds (.setColumnRange _ _) nofun rfl (validRange_of_le hlast hle)
  · exact adds (.setRowRange _ _) nofun rfl (validRange_of_le hlast hle)
  · exact adds (.writeMemory s.payload) nofun (groupsRequested_writeMemory hfit) rfl
  · rw [← paramBytes_palette]
    exact adds s.paletteCommand nofun rfl (validCommand_palette hpal)
  · exact adds (.setAddressMode _) nofun rfl rfl
  · have hcode := colorCode_of_bpp hc
    have hp : paramBytes s.cfg (.setColorMode s.regs.argBpp) = [code] := by simp [paramBytes, hcode]
    have hadds := adds (i := .setColorMode) (.setColorMode s.regs.argBpp) nofun rfl (by simp [validCommand, hcode])
    rwa [hp] at hadds

end Sys2Proof.Machine
end

section
/-! The memories (20_memory.md R60 to R75): a step writes one by a byte of the host, by a pixel of RESAMPLE or by the
reset input, and not otherwise. Said once of the block, from which the statements follow. -/

namespace Sys2Proof.Machine

/-! ### What leaves the memories alone -/

theorem mem_raise (e : ErrClass) (s : State) : (s.raise e).mem = s.mem := rfl

theorem mem_enter (q : Seq) (s : State) : (s.enter q).mem = s.mem := rfl

theorem mem_complete (s : State) : s.complete.mem = s.mem := rfl

theorem mem_stopped (s : State) : s.stopped.mem = s.mem := rfl

theorem mem_toFrames (s : State) : s.captureNow.toFrames.mem = s.mem := by
  unfold State.toFrames
  split_ifs <;> rfl

theorem mem_playCheck (s : State) : s.playCheck.mem = s.mem := by
  unfold State.playCheck
  dsimp only
  split_ifs <;> rfl

theorem mem_boundary (s : State) : s.boundary.mem = s.mem := by
  unfold State.boundary
  split_ifs <;> rfl

theorem mem_emptyPass (s : State) : s.emptyPass.mem = s.mem := by
  unfold State.emptyPass
  split_ifs <;> rfl

/-- A primitive moves line levels and the transport flag only (10_state.md R45). -/
theorem mem_primEffect (p : Event) (s : State) : (primEffect p s).mem = s.mem := by
  obtain ⟨_, _, _, _, h, -⟩ := primEffect_eq p s
  rw [h]
  rfl

theorem mem_afterPosition (s : State) : s.afterPosition.mem = s.mem := by
  cases hq : s.seq <;> simp only [State.afterPosition, hq]
  case cmd => exact mem_complete s
  case init k => split_ifs; exacts [mem_enter _ s, mem_complete s]
  case playInit k => split_ifs; exacts [mem_enter _ s, mem_toFrames s]
  case playFrame i ph =>
    cases ph
    case sleep => rfl
    all_goals exact mem_enter _ s
  case teardown => exact mem_complete s

theorem mem_afterPrimitive (rest : List Event) (s : State) : (s.afterPrimitive rest).mem = s.mem := by
  cases rest with
  | nil => exact mem_afterPosition (s.setTodo [])
  | cons p ps => rfl

/-- Of the positions without primitives only RESAMPLE's writes a memory (20_memory.md R75). -/
theorem internalStep_memory (s : State) :
    s.internalStep.mem = s.mem ∨ ∃ r col, s.seq = .resample r col ∧ s.internalStep = s.pixelStep r col := by
  cases hq : s.seq <;> simp only [State.internalStep, hq]
  case resample r col => exact .inr ⟨r, col, rfl, rfl⟩
  all_goals left
  case idle => trivial
  case cmd => exact mem_complete s
  case init k => exact mem_enter _ s
  case playCheck => exact mem_playCheck s
  case playInit k => split_ifs; exacts [mem_emptyPass s, mem_enter _ s]
  case playFrame i ph =>
    cases ph
    case col => exact mem_boundary s
    case advance => rfl
    all_goals exact mem_enter _ s
  case teardown => rfl

/-- A running operation writes a memory only where RESAMPLE stores a pixel (20_memory.md R75). -/
theorem seqStep_memory (s : State) :
    s.seqStep.mem = s.mem ∨ ∃ r col, s.seq = .resample r col ∧ s.seqStep = s.pixelStep r col := by
  cases ht : s.todo with
  | nil => exact seqStep_internal ht ▸ internalStep_memory s
  | cons p rest =>
    left
    obtain ⟨n, -, hs | hs | ⟨k, hs⟩⟩ := seqStep_calls ht <;> rw [hs]
    · rfl
    · rw [mem_afterPrimitive, mem_primEffect]
      rfl
    · rfl

/-- A request writes no memory, whatever becomes of it. -/
theorem mem_issue {s t : State} {code : Byte} (h : s.issue code = .next t) : t.mem = s.mem := by
  obtain ⟨u, hu, hc⟩ := issue_cases code s
  obtain rfl : u = t := by simpa [hu] using h
  rcases hc with rfl | ⟨-, -, rfl⟩ | ⟨-, -, rfl⟩ | ⟨-, -, rfl | ⟨gs, -, rfl⟩ | rfl | rfl | rfl | rfl⟩
  · rfl
  · rfl
  · rfl
  · exact mem_raise _ (s.accept code)
  · cases gs with
    | none => exact mem_raise _ (s.accept code)
    | some gs =>
      unfold State.startCommand
      dsimp only
      split_ifs <;> rfl
  · unfold State.startOpenInit
    split_ifs <;> rfl
  · unfold State.startPlay
    split_ifs <;> rfl
  · unfold State.startResample
    split_ifs <;> rfl
  · rfl

/-- Everything a step can do to the memories: nothing, a byte of the host, the reset input, a pixel of RESAMPLE. -/
theorem step_memory {s t : State} (h : step s = .next t) :
    t.mem = s.mem ∨
      (∃ sp a v, s.busy = false ∧ a < capacity s.cfg sp ∧ t = (s.setScript s.script.tail).writeByte sp a v) ∨
      (∃ rest, s.script = .host .assertReset :: rest ∧ t = (s.setScript s.script.tail).assertReset) ∨
      ∃ r col, s.seq = .resample r col ∧ t = (s.setScript s.script.tail).pixelStep r col := by
  rcases step_cases h with ⟨v, rfl⟩ | ⟨num, v, _, -, -, rfl⟩ | hwrite | hreset | ⟨code, hc⟩ | ⟨-, rfl⟩ | rfl |
    ⟨code, held, -, -, -, hc⟩
  · exact .inl rfl
  · rw [writeLatch_eq]
    exact .inl rfl
  · exact .inr (.inl hwrite)
  · exact .inr (.inr (.inl hreset))
  · have hm := mem_issue hc
    exact .inl hm
  · rcases seqStep_memory (s.setScript s.script.tail) with hm | hpixel
    · exact .inl hm
    · exact .inr (.inr (.inr hpixel))
  · exact .inl rfl
  · have hm := mem_issue hc
    exact .inl hm

/-! ### A pixel stays inside FB -/

/-- The memories after a pixel are those its store leaves. -/
theorem mem_pixelStep (s : State) (r col : Nat) : (s.pixelStep r col).mem = (s.storePixel r col).mem := by
  unfold State.pixelStep
  dsimp only
  cases nextPixel s.cfg r col <;> rfl

/-- The bytes of a slot's pixels lie below the slot's end (20_memory.md R63). -/
theorem fbAddr_lt_slotEnd {c : Config} {r col ch : Nat} (f : Nat) (hr : r < c.panelH) (hcol : col < c.panelW)
    (hch : ch < 3) : fbAddr c f r col ch < (f + 1) * c.frameBytes := by
  have hpixel : r * c.panelW + col + 1 ≤ c.panelH * c.panelW := by
    calc r * c.panelW + col + 1 ≤ (r + 1) * c.panelW := by rw [Nat.add_one_mul]; omega
      _ ≤ c.panelH * c.panelW := Nat.mul_le_mul_right _ hr
  have hframe : c.frameBytes = c.panelH * c.panelW * 3 := rfl
  rw [fbAddr_eq, Nat.add_one_mul f]
  omega

/-- RESAMPLE's check has its slot inside FB (42_scaler.md R170). -/
theorem frameValid_slot {c : Config} {l : Latches} (h : frameValid c l = true) :
    (l.argSlot.toNat + 1) * c.frameBytes ≤ c.fbCap := by
  simp only [frameValid, Bool.and_eq_true, decide_eq_true_eq] at h
  exact h.2

/-- A pixel of a validated RESAMPLE is stored inside FB. -/
theorem MemoryInv.storePixel {s : State} {r col : Nat} (h : MemoryInv s) (hr : r < s.cfg.panelH)
    (hcol : col < s.cfg.panelW) (hv : frameValid s.cfg s.regs = true) : MemoryInv (s.storePixel r col) := by
  have inside : ∀ ch < 3, fbAddr s.cfg s.regs.argSlot.toNat r col ch < s.cfg.fbCap := fun ch hch =>
    (fbAddr_lt_slotEnd _ hr hcol hch).trans_le (frameValid_slot hv)
  exact ((h.writeByte .fb _ _ (inside 0 (by decide))).writeByte .fb _ _ (inside 1 (by decide))).writeByte .fb _ _
    (inside 2 (by decide))

theorem memoryInv_assertReset (s : State) : MemoryInv s.assertReset :=
  ⟨fun sp => by cases sp <;> rfl, fun sp => by cases sp <;> rfl⟩

/-! ### The obligations -/

/-- Settles O52: the host writes below the capacity, and the control invariant has a running RESAMPLE validated. -/
theorem stepKeepsMemoryInv : Obligations.StepKeepsMemoryInv := by
  intro s t hctl h ht
  rcases step_memory ht with hm | ⟨sp, a, v, -, ha, rfl⟩ | ⟨rest, -, rfl⟩ | ⟨r, col, hq, rfl⟩
  · exact h.congr (configurationIsConstant s t ht) (congrFun hm)
  · have turn : MemoryInv (s.setScript s.script.tail) := h.congr rfl fun _ => rfl
    exact turn.writeByte sp a v ha
  · exact memoryInv_assertReset _
  · have turn : MemoryInv (s.setScript s.script.tail) := h.congr rfl fun _ => rfl
    have hp := hctl.position
    simp only [PositionOk, hq] at hp
    obtain ⟨-, hr, hcol, hv⟩ := hp
    exact (turn.storePixel hr hcol hv).congr (onward_pixelStep r col _).cfg (congrFun (mem_pixelStep _ r col))

/-- Settles O46: of what a step can do to the memories, a busy block without reset is left with a pixel, which writes
FB only. -/
theorem memoriesAreFrozenWhileBusy : Obligations.MemoriesAreFrozenWhileBusy := by
  intro s t hb h hreset
  rcases step_memory h with hm | ⟨_, _, _, hidle, -, -⟩ | ⟨rest, hs, -⟩ | ⟨r, col, hq, rfl⟩
  · exact ⟨congrFun hm .src, congrFun hm .pal, .inl (congrFun hm .fb)⟩
  · simp [hb] at hidle
  · exact absurd hs (hreset rest)
  · have hm := mem_pixelStep (s.setScript s.script.tail) r col
    exact ⟨congrFun hm .src, congrFun hm .pal, .inr ⟨r, col, hq⟩⟩

/-- A channel is a byte 0, 1 or 2 of its pixel: stores that agree on these have the same samples
(20_memory.md R61, R62). -/
theorem sample_congr {mem mem' : Nat → Byte} {pitch x y : Nat} (ch : Nat)
    (h : ∀ k < 3, mem (y * pitch + 4 * x + k) = mem' (y * pitch + 4 * x + k)) :
    sample mem pitch x y ch = sample mem' pitch x y ch :=
  congrArg BitVec.toNat (h (2 - ch) (by omega))

/-- Settles O40: each of the four clamped samples is a channel byte of a pixel of the frame. -/
theorem alphaAndPaddingAreNeverRead : Obligations.AlphaAndPaddingAreNeverRead := by
  intro c l mem mem' r col ch _ hw hh hagree
  have same : ∀ i j, sample mem l.srcPitch.toNat (clampIndex i l.srcW.toNat) (clampIndex j l.srcH.toNat) ch =
      sample mem' l.srcPitch.toNat (clampIndex i l.srcW.toNat) (clampIndex j l.srcH.toNat) ch := fun i j =>
    sample_congr ch (hagree _ (clampIndex_lt hw) _ (clampIndex_lt hh))
  simp only [interp, same]

/-- Settles O58: the move is one store, with the laws of reading after it. -/
theorem hostByteWriteStoresThatByte : Obligations.HostByteWriteStoresThatByte := by
  intro s rest sp a v hb ha hs
  have hstep : step s = .next ((s.setScript rest).writeByte sp a v) := by
    have hbusy : (s.setScript rest).busy = false := hb
    have hin : inMemory (s.setScript rest).cfg sp a = true := decide_eq_true ha
    rw [step_host hs]
    simp only [State.hostMove, hbusy, hin, Bool.false_eq_true, if_false, if_true]
  refine ⟨_, hstep, ?_, State.readByte_writeByte_self _ sp a v, fun b hne => ?_, fun sp' hne => ?_⟩
  · cases sp <;> rfl
  · exact State.readByte_writeByte_other _ sp a b v hne
  · exact State.mem_writeByte_other _ sp sp' a v hne

end Sys2Proof.Machine
end

section
/-! The host encoding and the wire encoding (30_encoding.md R90 to R97, R110, R111; 41_commands_param.md R142, R159 to
R161, R165): each reads back as what was encoded. -/

namespace Sys2Proof.Machine

/-! ### Request codes -/

theorem decodeOp_encodeOp (i : Instr) : decodeOp (encodeOp i) = .instr i := by cases i <;> rfl

/-- The decoder reads an operation from its own code only (30_encoding.md R110). -/
theorem encodeOp_of_decodeOp {code : Byte} {i : Instr} (h : decodeOp code = .instr i) : code = encodeOp i := by
  unfold decodeOp at h
  split at h
  case h_22 => cases h
  all_goals
    cases h
    exact BitVec.eq_of_toNat_eq ‹_›

/-- Settles O2: the encoder gives a code the decoder reads, and the decoder reads no other. -/
theorem codeDecodingInvertsEncoding : Obligations.CodeDecodingInvertsEncoding := by
  intro i code
  exact ⟨encodeOp_of_decodeOp, fun h => h ▸ decodeOp_encodeOp i⟩

/-- Settles O1: eleven codes are those of the encoder, and two are in no row of the table. -/
theorem requestCodesDecode : Obligations.RequestCodesDecode :=
  ⟨decodeOp_encodeOp .reset, decodeOp_encodeOp .sleepOut, decodeOp_encodeOp .setGamma,
    decodeOp_encodeOp .setColumnRange, decodeOp_encodeOp .writeMemory, decodeOp_encodeOp .setColorMode,
    decodeOp_encodeOp .openInit, decodeOp_encodeOp .resample, decodeOp_encodeOp .play, decodeOp_encodeOp .stop,
    decodeOp_encodeOp .close, rfl, rfl⟩

/-! ### A write of `OP` -/

/-- A host write of `OP` issues its low byte (10_state.md R33; log entry 17). -/
theorem step_writeOp {s : State} {v : Word} {rest : List Turn} (h : s.script = .host (.writeReg 0x1F v) :: rest) :
    step s = (s.setScript rest).issue (v.setWidth 8) :=
  step_host h

theorem issue_instr {code : Byte} {i : Instr} (h : decodeOp code = .instr i) (s : State) :
    s.issue code = exec i s := by
  simp only [State.issue, h]

theorem issue_rejected {code : Byte} {why : Reject} (h : decodeOp code = .rejected why) (s : State) :
    s.issue code = .next (s.unknownRequest code) := by
  simp only [State.issue, h]

/-- A row of the opcode table is a byte the decoder reads. -/
theorem decodeOp_of_decodeTableWord {w : Nat} {i : Instr} (h : decodeTableWord 8 w = some i) :
    decodeOp (BitVec.ofNat 8 w) = .instr i := by
  unfold decodeTableWord at h
  rw [if_pos rfl] at h
  split at h
  · rename_i j hj
    rw [hj, Option.some.inj h]
  · cases h

/-- Settles O7: the low byte of the value written is issued, and `withFetchWord` writes the word. -/
theorem stepRunsDecodedRequest : Obligations.StepRunsDecodedRequest := by
  refine ⟨fun s rest v i hs hd => ?_, fun s w i hw hd => ?_⟩
  · rw [step_writeOp hs, issue_instr hd]
  · have hbyte : (BitVec.ofNat 32 (w % 2 ^ 8)).setWidth 8 = BitVec.ofNat 8 w := by
      apply BitVec.eq_of_toNat_eq
      simp only [BitVec.toNat_setWidth, BitVec.toNat_ofNat]
      omega
    have hstep : step (s.withFetchWord 8 w) = s.issue ((BitVec.ofNat 32 (w % 2 ^ 8)).setWidth 8) := step_writeOp rfl
    rw [hstep, hbyte, issue_instr (decodeOp_of_decodeTableWord hd)]

/-- Settles O8: a rejected code is a request like another, and what it starts is the error. -/
theorem unknownCodeRaisesUsageError : Obligations.UnknownCodeRaisesUsageError := by
  intro s rest v why hs hd
  rw [step_writeOp hs, issue_rejected hd]
  unfold State.unknownRequest
  refine ⟨fun hready => ?_, fun hb he => ?_, fun he => ?_⟩
  · have he : (s.setScript rest).err = 0 := hready.noError
    rw [request_idle he hready.notBusy, raise_accept _ _ he]
  · rw [request_busy (s := s.setScript rest) he hb]
    rfl
  · rw [request_halted (s := s.setScript rest) he]

/-! ### Ranges -/

/-- Two bytes, the high one first, are the number R97 gives. -/
theorem toNat_append_bytes (d0 d1 : Byte) : (d0 ++ d1).toNat = d0.toNat * 256 + d1.toNat := by
  rw [BitVec.toNat_append, Nat.shiftLeft_eq, Nat.mul_comm, ← Nat.two_pow_add_eq_or_of_lt d1.isLt, Nat.mul_comm]

theorem hi_append_lo (v : Half) : hi v ++ lo v = v := by
  apply BitVec.eq_of_toNat_eq
  rw [toNat_append_bytes]
  simp only [hi, lo, BitVec.extractLsb'_toNat, Nat.shiftRight_eq_div_pow]
  omega

theorem decodeRange_rangeBytes (first last : Half) : decodeRange (rangeBytes first last) = some (first, last) := by
  simp only [rangeBytes, decodeRange, hi_append_lo]

/-- Settles O3: the bytes of a half are its high and its low byte, and append to R97's number. -/
theorem rangeBytesReadBack : Obligations.RangeBytesReadBack :=
  ⟨decodeRange_rangeBytes, fun d0 d1 d2 d3 =>
    ⟨d0 ++ d1, d2 ++ d3, rfl, toNat_append_bytes d0 d1, toNat_append_bytes d2 d3⟩⟩

/-! ### The address-mode byte -/

/-- The byte that flags make, each at a bit position (41_commands_param.md R159). -/
def flagByte (l : List (Bool × Nat)) : Byte := (l.map fun p => BitVec.ofNat 8 (flagBit p.1 p.2)).sum

theorem getLsbD_flagBit (b : Bool) (k : Nat) {j : Nat} (hj : j < 8) :
    (BitVec.ofNat 8 (flagBit b k)).getLsbD j = (b && decide (k = j)) := by
  rw [BitVec.getLsbD_ofNat, decide_eq_true hj, Bool.true_and]
  cases b with
  | false => exact Nat.zero_testBit j
  | true => exact Nat.testBit_two_pow.trans (Bool.true_and _).symm

/-- Flags at distinct positions do not carry: a bit is set exactly if a flag that is true stands there. -/
theorem getLsbD_flagByte {l : List (Bool × Nat)} (h : (l.map Prod.snd).Nodup) {j : Nat} (hj : j < 8) :
    (flagByte l).getLsbD j = l.any fun p => p.1 && decide (p.2 = j) := by
  induction l generalizing j with
  | nil => simp [flagByte]
  | cons p l ih =>
    obtain ⟨b, k⟩ := p
    rw [List.map_cons, List.nodup_cons] at h
    obtain ⟨hk, hnodup⟩ := h
    have hdisjoint : BitVec.ofNat 8 (flagBit b k) &&& flagByte l = 0#8 := by
      refine BitVec.eq_of_getLsbD_eq fun i hi => ?_
      rw [BitVec.getLsbD_and, getLsbD_flagBit b k hi, ih hnodup hi, BitVec.getLsbD_zero, Bool.eq_false_iff]
      intro hboth
      simp only [Bool.and_eq_true, decide_eq_true_eq, List.any_eq_true] at hboth
      obtain ⟨⟨-, rfl⟩, q, hq, -, hqk⟩ := hboth
      exact hk (List.mem_map.2 ⟨q, hq, hqk⟩)
    have hsum : flagByte ((b, k) :: l) = BitVec.ofNat 8 (flagBit b k) ||| flagByte l :=
      BitVec.add_eq_or_of_and_eq_zero _ _ hdisjoint
    rw [hsum, BitVec.getLsbD_or, getLsbD_flagBit b k hj, ih hnodup hj, List.any_cons]

/-- A flag at a position of its own reads back there. -/
theorem getLsbD_flagByte_of_mem {l : List (Bool × Nat)} (h : (l.map Prod.snd).Nodup) {b : Bool} {k : Nat}
    (hmem : (b, k) ∈ l) (hk : k < 8) : (flagByte l).getLsbD k = b := by
  rw [getLsbD_flagByte h hk, Bool.eq_iff_iff]
  simp only [List.any_eq_true, Bool.and_eq_true, decide_eq_true_eq]
  constructor
  · rintro ⟨q, hq, hb, hqk⟩
    rwa [List.inj_on_of_nodup_map h hq hmem hqk] at hb
  · exact fun hb => ⟨(b, k), hmem, hb, rfl⟩

/-- The six flags with their positions, in argument order (41_commands_param.md R159). -/
def flagsAt (t : AddrBits) (f : AddressFlags) : List (Bool × Nat) :=
  [(f.rowInverse, t.rowInverse), (f.columnInverse, t.columnInverse), (f.rowColumnSwap, t.rowColumnSwap),
    (f.rowRefreshInverse, t.rowRefreshInverse), (f.columnRefreshInverse, t.columnRefreshInverse),
    (f.rgbInverse, t.rgbInverse)]

theorem addressByte_eq_flagByte (t : AddrBits) (f : AddressFlags) : addressByte t f = flagByte (flagsAt t f) := by
  simp [addressByte, flagByte, flagsAt, BitVec.ofNat_add, BitVec.add_assoc]

/-- The positions of an admissible table are distinct and bits of a byte (41_commands_param.md R161). -/
theorem flagsAt_of_wf {t : AddrBits} (h : t.wf = true) (f : AddressFlags) :
    ((flagsAt t f).map Prod.snd).Nodup ∧ ∀ p ∈ flagsAt t f, 2 ≤ p.2 ∧ p.2 < 8 := by
  simp only [AddrBits.wf, Bool.and_eq_true, decide_eq_true_eq, List.all_eq_true] at h
  obtain ⟨hrange, hnodup⟩ := h
  refine ⟨hnodup, fun p hp => ?_⟩
  obtain ⟨hlow, hhigh⟩ := hrange p.2 (List.mem_map_of_mem (f := Prod.snd) hp)
  exact ⟨hlow, Nat.lt_succ_of_le hhigh⟩

/-- The flags read back from the address-mode byte (41_commands_param.md R160, R161). -/
theorem addressFlags_addressByte {t : AddrBits} (h : t.wf = true) (f : AddressFlags) :
    addressFlags t (addressByte t f) = f := by
  obtain ⟨hnodup, hrange⟩ := flagsAt_of_wf h f
  have read : ∀ {b k}, (b, k) ∈ flagsAt t f → (addressByte t f).getLsbD k = b := fun hmem => by
    rw [addressByte_eq_flagByte]
    exact getLsbD_flagByte_of_mem hnodup hmem (hrange _ hmem).2
  obtain ⟨f1, f2, f3, f4, f5, f6⟩ := f
  simp only [addressFlags, AddressFlags.mk.injEq]
  refine ⟨read ?_, read ?_, read ?_, read ?_, read ?_, read ?_⟩ <;> simp [flagsAt]

/-! ### Byte groups -/

/-- Where the four gamma codes are distinct each is its curve's (41_commands_param.md R142). -/
theorem gammaCurve_of_gammaCode {t : GammaTable} (ht : [t.g10, t.g18, t.g22, t.g25].Nodup) {curve v : Byte}
    (h : gammaCode t curve = some v) : gammaCurve t v = some curve := by
  simp only [List.nodup_cons, List.mem_cons, List.not_mem_nil, or_false, not_or] at ht
  obtain ⟨⟨h1, h2, h3⟩, ⟨h4, h5⟩, h6, -⟩ := ht
  have hcurve : curve = BitVec.ofNat 8 curve.toNat := by simp
  unfold gammaCode at h
  split at h
  case h_5 => cases h
  all_goals
    rename_i hnat
    obtain rfl := Option.some.inj h
    rw [hcurve, hnat]
    simp [gammaCurve, Ne.symm h1, Ne.symm h2, Ne.symm h3, Ne.symm h4, Ne.symm h5, Ne.symm h6]

/-- The three codes of R165 are distinct. -/
theorem colorBits_of_colorCode {bpp v : Byte} (h : colorCode bpp = some v) : colorBits v = some bpp := by
  unfold colorCode at h
  split at h
  case h_4 => cases h
  all_goals
    rename_i hbpp
    obtain rfl := Option.some.inj h
    exact congrArg some (BitVec.eq_of_toNat_eq hbpp).symm

/-- The groups of a command with parameters are read by the format of its opcode (30_encoding.md R91). -/
theorem readGroups_params {c : Config} {k : Command} (h : paramBytes c k ≠ []) :
    readGroups c (groupsOf c k) = readParam c (opcodeOf k) (paramBytes c k) := by
  unfold groupsOf
  split
  · exact absurd ‹_› h
  · rename_i p ps hp
    rw [hp]
    rfl

/-- The 128 bytes of a palette are cut where they were joined (41_commands_param.md R155). -/
theorem readParam_palette (c : Config) {r g b : List Byte} (hr : r.length = 32) (hg : g.length = 64)
    (hb : b.length = 32) : readParam c 0x2D (r ++ g ++ b) = some (.setPalette r g b) := by
  have hlen : (r ++ g ++ b).length = 128 := by simp [hr, hg, hb]
  have htake : (r ++ g ++ b).take 32 = r := by simp [List.append_assoc, ← hr]
  have hmid : ((r ++ g ++ b).drop 32).take 64 = g := by simp [List.append_assoc, ← hr, ← hg]
  have hdrop : (r ++ g ++ b).drop 96 = b := List.drop_left' (by simp [hr, hg])
  show (if (r ++ g ++ b).length = 128 then some (Command.setPalette ((r ++ g ++ b).take 32)
    (((r ++ g ++ b).drop 32).take 64) ((r ++ g ++ b).drop 96)) else none) = _
  rw [if_pos hlen, htake, hmid, hdrop]

/-- The groups of a valid command read back as the command (30_encoding.md R90 to R92). -/
theorem readGroups_groupsOf {c : Config} {k : Command} (hc : c.addrBit.wf = true)
    (hg : [c.gamma.g10, c.gamma.g18, c.gamma.g22, c.gamma.g25].Nodup) (hk : k.wf = true)
    (hv : validCommand c k = true) : readGroups c (groupsOf c k) = some k := by
  cases k
  case setGamma curve =>
    obtain ⟨v, hcode⟩ := Option.isSome_iff_exists.1 hv
    have hp : paramBytes c (.setGamma curve) = [v] := by simp only [paramBytes, hcode, Option.toList]
    rw [readGroups_params (by rw [hp]; nofun), hp]
    show (gammaCurve c.gamma v).map Command.setGamma = _
    rw [gammaCurve_of_gammaCode hg hcode]
    rfl
  case setColorMode bpp =>
    obtain ⟨v, hcode⟩ := Option.isSome_iff_exists.1 hv
    have hp : paramBytes c (.setColorMode bpp) = [v] := by simp only [paramBytes, hcode, Option.toList]
    rw [readGroups_params (by rw [hp]; nofun), hp]
    show (colorBits v).map Command.setColorMode = _
    rw [colorBits_of_colorCode hcode]
    rfl
  case setColumnRange first last =>
    show (decodeRange (rangeBytes first last)).map (fun r => Command.setColumnRange r.1 r.2) = _
    rw [decodeRange_rangeBytes]
    rfl
  case setRowRange first last =>
    show (decodeRange (rangeBytes first last)).map (fun r => Command.setRowRange r.1 r.2) = _
    rw [decodeRange_rangeBytes]
    rfl
  case setAddressMode flags =>
    show some (Command.setAddressMode (addressFlags c.addrBit (addressByte c.addrBit flags))) = _
    rw [addressFlags_addressByte hc]
  case writeMemory payload => cases payload <;> rfl
  case setPalette r g b =>
    simp only [Command.wf, Bool.and_eq_true, decide_eq_true_eq] at hk
    obtain ⟨⟨hr, hgreen⟩, hb⟩ := hk
    have hp : paramBytes c (.setPalette r g b) ≠ [] := by
      intro h0
      simpa [paramBytes, hr] using congrArg List.length h0
    rw [readGroups_params hp]
    exact readParam_palette c hr hgreen hb
  all_goals rfl

/-- Only a valid command is encoded (30_encoding.md R92). -/
theorem validCommand_of_encode {c : Config} {k : Command} {gs : List Group} (h : encode c k = some gs) :
    validCommand c k = true := by
  by_contra hv
  simp [encode, hv] at h

/-- Settles O4: format by format, the parameters read back as the arguments they were made of. -/
theorem wireEncodingRoundTrip : Obligations.WireEncodingRoundTrip := by
  intro c k gs hc hg hk h
  have haddr : c.addrBit.wf = true := by
    simp only [Config.wf, Bool.and_eq_true] at hc
    exact hc.2
  rw [encode_some h]
  exact readGroups_groupsOf haddr hg hk (validCommand_of_encode h)

end Sys2Proof.Machine
end

section
/-! The wire discipline is kept by every step (30_encoding.md R94, R99; 70_reset_and_hazards.md R282). A step either
makes the next call of its position, which moves one event from the calls left to the trace, or goes to another
position, whose calls are in order by themselves. -/

namespace Sys2Proof.Machine

/-! ### Going to another position -/

/-- The block goes from `s` to a position of `t` with no call made: nothing is sent, no call is in flight, and the
calls the position makes are in order. -/
structure Loads (s t : State) : Prop where
  cfg : t.cfg = s.cfg
  trace : t.trace = s.trace
  landed : t.inFlight = none
  calls : disciplined t.cfg.dcCommandLevel none t.todo = true

/-- What has been sent is in order. -/
theorem WireInv.sent {s : State} (h : WireInv s) : disciplined s.cfg.dcCommandLevel none s.trace = true :=
  disciplined_prefix h

/-- With no call in flight, every call left is still to be made. -/
theorem uncalled_landed {s : State} (h : s.inFlight = none) : s.uncalled = s.todo := by
  unfold State.uncalled
  rw [h]

/-- After what is in order a position whose calls are in order keeps the discipline. -/
theorem Loads.wireInv {s t : State} (h : Loads s t) (hs : disciplined s.cfg.dcCommandLevel none s.trace = true) :
    WireInv t := by
  rw [← h.cfg, ← h.trace] at hs
  unfold WireInv
  rw [uncalled_landed h.landed]
  exact disciplined_append hs h.calls

/-- A state with nothing to call. -/
theorem Loads.of_eq {s t : State} (hc : t.cfg = s.cfg) (ht : t.trace = s.trace) (hf : t.inFlight = none)
    (hl : t.todo = []) : Loads s t :=
  ⟨hc, ht, hf, by rw [hl]; rfl⟩

/-- The teardown calls `tp.close()` at most, which is no byte group (44_streamer.md R225). -/
theorem loads_teardown (s : State) : Loads s s.teardown :=
  ⟨rfl, rfl, rfl, by rw [State.teardown_todo]; split_ifs <;> rfl⟩

theorem loads_raise (e : ErrClass) (s : State) : Loads s (s.raise e) :=
  ⟨rfl, rfl, rfl, (loads_teardown _).calls⟩

theorem loads_stopped (s : State) : Loads s s.stopped :=
  ⟨rfl, rfl, rfl, (loads_teardown _).calls⟩

theorem loads_complete (s : State) : Loads s s.complete := .of_eq rfl rfl rfl rfl

theorem loads_enter {s : State} (hf : s.inFlight = none) (q : Seq) : Loads s (s.enter q) :=
  ⟨rfl, rfl, hf, disciplined_eventsAt s q⟩

theorem loads_toFrames {s : State} (hf : s.inFlight = none) : Loads s s.captureNow.toFrames := by
  unfold State.toFrames
  split_ifs
  · exact .of_eq rfl rfl hf rfl
  · exact .of_eq rfl rfl hf rfl

theorem loads_playCheck {s : State} (hf : s.inFlight = none) : Loads s s.playCheck := by
  have raise : ∀ e, Loads s (State.raise e { s with periodLatched := s.regs.periodMs }) := fun e =>
    ⟨rfl, rfl, rfl, (loads_raise e _).calls⟩
  unfold State.playCheck
  dsimp only
  split_ifs
  · exact raise _
  · exact raise _
  · exact raise _
  · exact ⟨rfl, rfl, hf, disciplined_eventsAt s (.playInit 0)⟩

theorem loads_pixelStep {s : State} (hf : s.inFlight = none) (ht : s.todo = []) (r col : Nat) :
    Loads s (s.pixelStep r col) := by
  unfold State.pixelStep
  dsimp only
  rw [storePixel_eq]
  split
  · exact .of_eq rfl rfl hf ht
  · exact .of_eq rfl rfl rfl rfl

theorem loads_afterPosition {s : State} (hf : s.inFlight = none) (ht : s.todo = []) : Loads s s.afterPosition := by
  have stay : Loads s s := .of_eq rfl rfl hf ht
  cases hq : s.seq <;> simp only [State.afterPosition, hq]
  case idle => exact stay
  case cmd => exact loads_complete s
  case init k => split_ifs; exacts [loads_enter hf _, loads_complete s]
  case resample r col => exact stay
  case playCheck => exact stay
  case playInit k => split_ifs; exacts [loads_enter hf _, loads_toFrames hf]
  case playFrame i ph =>
    cases ph
    case sleep => exact .of_eq rfl rfl hf rfl
    all_goals exact loads_enter hf _
  case teardown => exact loads_complete s

theorem loads_internalStep {s : State} (hf : s.inFlight = none) (ht : s.todo = []) : Loads s s.internalStep := by
  have stay : Loads s s := .of_eq rfl rfl hf ht
  cases hq : s.seq <;> simp only [State.internalStep, hq]
  case idle => exact stay
  case cmd => exact loads_complete s
  case init k => exact loads_enter hf _
  case resample r col => exact loads_pixelStep hf ht r col
  case playCheck => exact loads_playCheck hf
  case playInit k =>
    unfold State.emptyPass
    split_ifs
    · exact loads_stopped s
    · exact stay
    · exact loads_enter hf _
  case playFrame i ph =>
    cases ph
    case col =>
      show Loads s s.boundary
      unfold State.boundary
      split_ifs
      · exact loads_stopped s
      · exact ⟨rfl, rfl, hf, disciplined_command s.cfg _⟩
    case advance => exact ⟨rfl, rfl, hf, disciplined_eventsAt s.moveDeadline (.playFrame i .sleep)⟩
    all_goals exact loads_enter hf _
  case teardown => exact loads_teardown s

/-! ### Requests -/

/-- A panel command has the calls of its groups to make, or ends in an error. -/
theorem loads_startCommand {s : State} {gs : Option (List Group)} (hf : s.inFlight = none)
    (hgs : gs = none ∨ ∃ k, gs = encode s.cfg k) : Loads s (State.startCommand gs s) := by
  cases gs with
  | none => exact loads_raise .validation s
  | some gs =>
    obtain ⟨k, hk⟩ := hgs.resolve_left nofun
    rw [encode_some hk.symm]
    unfold State.startCommand
    dsimp only
    split_ifs
    · exact ⟨rfl, rfl, hf, disciplined_groupsOf s.cfg k⟩
    · exact loads_raise .io s

theorem loads_startOpenInit {s : State} (hf : s.inFlight = none) : Loads s s.startOpenInit := by
  unfold State.startOpenInit
  split_ifs
  · exact loads_raise _ s
  · exact loads_enter hf _

theorem loads_startPlay {s : State} (hf : s.inFlight = none) : Loads s s.startPlay := by
  unfold State.startPlay
  split_ifs
  · exact loads_raise _ s
  · exact loads_enter hf _

theorem loads_startResample {s : State} (hf : s.inFlight = none) : Loads s s.startResample := by
  unfold State.startResample
  split_ifs
  · exact .of_eq rfl rfl hf rfl
  · exact loads_raise _ s

/-- A request to an idle block loads the calls of what it starts; any other changes no call. -/
theorem wireInv_issue {s t : State} {code : Byte} (hc : ControlInv s) (h : WireInv s) (ht : s.issue code = .next t) :
    WireInv t := by
  obtain ⟨u, hu, hcases⟩ := issue_cases code s
  obtain rfl : u = t := by simpa [hu] using ht
  rcases hcases with rfl | ⟨-, -, rfl⟩ | ⟨-, -, rfl⟩ | ⟨-, hb, hstart⟩
  · exact h
  · exact h
  · exact h
  · obtain ⟨-, -, hidle, -⟩ := hc.idle hb
    have hf : (s.accept code).inFlight = none := hidle
    suffices Loads (s.accept code) u from this.wireInv h.sent
    rcases hstart with rfl | ⟨gs, hgs, rfl⟩ | rfl | rfl | rfl | rfl
    · exact loads_raise _ _
    · exact loads_startCommand hf hgs
    · exact loads_startOpenInit hf
    · exact loads_startPlay hf
    · exact loads_startResample hf
    · exact loads_teardown _

/-! ### Calls -/

/-- The head of the calls left is made once: it is in the trace already when it is in flight, else it is the next to
be made (10_state.md R45). -/
theorem trace_append_uncalled {s : State} {p : Event} {rest : List Event} (h : s.todo = p :: rest) :
    s.trace ++ s.uncalled = s.trace ++ (if s.inFlight = none then [p] else []) ++ rest := by
  unfold State.uncalled
  cases s.inFlight <;> simp [h]

/-- With a call made, waiting or ended, what is sent and what is left are in order. -/
theorem WireInv.called {s : State} {p : Event} {rest : List Event} (h : WireInv s) (ht : s.todo = p :: rest) (n : Nat) :
    disciplined s.cfg.dcCommandLevel none ((s.answered p n).trace ++ rest) = true := by
  unfold WireInv at h
  rwa [trace_append_uncalled ht] at h

/-- After a primitive that returned, the rest of the position is left, or the block goes to the next one. -/
theorem wireInv_returned {s : State} {p : Event} {rest : List Event} (n : Nat)
    (h : disciplined s.cfg.dcCommandLevel none ((s.answered p n).trace ++ rest) = true) :
    WireInv ((primEffect p (s.answered p n)).afterPrimitive rest) := by
  obtain ⟨dc, rst, lines, opened, hu, -⟩ := primEffect_eq p (s.answered p n)
  rw [hu]
  cases rest with
  | nil => exact (loads_afterPosition rfl rfl).wireInv (disciplined_prefix h)
  | cons q qs => exact h

/-- A step of the running operation keeps the wire discipline. -/
theorem wireInv_seqStep {s : State} (hc : ControlInv s) (h : WireInv s) : WireInv s.seqStep := by
  cases ht : s.todo with
  | nil =>
    rw [seqStep_internal ht]
    exact (loads_internalStep (hc.noStrayCall ht) ht).wireInv h.sent
  | cons p rest =>
    obtain ⟨n, -, hs | hs | ⟨k, hs⟩⟩ := seqStep_calls ht <;> rw [hs]
    · show disciplined _ none ((s.answered p n).trace ++ s.todo.tail) = true
      rw [ht]
      exact h.called ht n
    · exact wireInv_returned n (h.called ht n)
    · exact (loads_raise .io _).wireInv (disciplined_prefix (h.called ht n))

/-! ### Every step -/

/-- Settles O53: a call moves one event from the calls left to the trace, every other step of the block loads calls that
are in order, and no host move but the reset input touches either. -/
theorem stepKeepsWireInv : Obligations.StepKeepsWireInv := by
  intro s t hc h ht
  have hturn : ControlInv (s.setScript s.script.tail) := hc.frame s.rdata s.held s.script.tail
  rcases step_cases ht with ⟨v, rfl⟩ | ⟨num, v, _, -, -, rfl⟩ | ⟨sp, a, v, -, -, rfl⟩ | ⟨_, -, rfl⟩ | ⟨code, hi⟩ |
    ⟨-, rfl⟩ | rfl | ⟨code, held, -, -, -, hi⟩
  · exact h
  · rw [writeLatch_eq]
    exact h
  · cases sp <;> exact h
  · exact rfl
  · exact wireInv_issue hturn h hi
  · exact wireInv_seqStep hturn h
  · exact h
  · exact wireInv_issue (hc.frame s.rdata held s.script.tail) h hi

end Sys2Proof.Machine
end

section
/-! The nine commands without parameters (40_commands_plain.md): one opcode byte at the command level. -/

namespace Sys2Proof.Machine

/-- A panel command without parameters, requested in a ready state: with the transport open it runs through its one
opcode group to its end, with the transport closed it is an IOError (40_commands_plain.md R120). -/
theorem sendsOpcode_of_plain {s : State} {i : Instr} (k : Command) (h : Ready s) (hi : i ≠ .stop)
    (hcode : encodeOp i = opcodeOf k) (hg : groupsRequested s i = some (some (groupsOf s.cfg k)))
    (hp : paramBytes s.cfg k = []) :
    (s.tpOpen = true → FairFor 2 s →
        CommandCompletes i (opcodeCalls s.cfg (opcodeOf k)) s.cfg.dcCommandLevel s) ∧
      (s.tpOpen = false → exec i s = .next (errorState .io (opcodeOf k) s)) := by
  refine ⟨fun ho hfair => ?_, fun ho => ?_⟩
  · exact command_runs hfair hi hg ho (emission_plain hp) (effects_opcode _ _)
  · rw [← hcode]
    exact command_closed h.noError h.notBusy hi hg ho

/-- Settles O12: each of the nine asks for the command of its row, which is valid, has the row's opcode and has no
parameters. -/
theorem plainCommandsSendTheirOpcode : Obligations.PlainCommandsSendTheirOpcode := by
  intro i op hmem s h
  simp only [List.mem_cons, Prod.mk.injEq, List.not_mem_nil, or_false] at hmem
  rcases hmem with ⟨rfl, rfl⟩ | ⟨rfl, rfl⟩ | ⟨rfl, rfl⟩ | ⟨rfl, rfl⟩ | ⟨rfl, rfl⟩ | ⟨rfl, rfl⟩ | ⟨rfl, rfl⟩ |
    ⟨rfl, rfl⟩ | ⟨rfl, rfl⟩
  · exact sendsOpcode_of_plain .reset h nofun rfl rfl rfl
  · exact sendsOpcode_of_plain .sleepIn h nofun rfl rfl rfl
  · exact sendsOpcode_of_plain .sleepOut h nofun rfl rfl rfl
  · exact sendsOpcode_of_plain .invertOff h nofun rfl rfl rfl
  · exact sendsOpcode_of_plain .invertOn h nofun rfl rfl rfl
  · exact sendsOpcode_of_plain .displayOff h nofun rfl rfl rfl
  · exact sendsOpcode_of_plain .displayOn h nofun rfl rfl rfl
  · exact sendsOpcode_of_plain .tearingEffectOff h nofun rfl rfl rfl
  · exact sendsOpcode_of_plain .tearingEffectOn h nofun rfl rfl rfl

end Sys2Proof.Machine
end

section
/-! The seven commands with parameters (41_commands_param.md): an opcode group, then the parameters in a data group;
an argument outside its bounds is a ValidationError. -/

namespace Sys2Proof.Machine

/-- A valid panel command with parameters, requested in a ready state: with the transport open it runs through its
opcode group and its data group to its end, with the transport closed it is an IOError (40_commands_plain.md R120). -/
theorem sendsParams_of_valid {s : State} {i : Instr} (k : Command) {params : List Byte} (h : Ready s) (hi : i ≠ .stop)
    (hcode : encodeOp i = opcodeOf k) (hg : groupsRequested s i = some (encode s.cfg k))
    (hv : validCommand s.cfg k = true) (hp : paramBytes s.cfg k = params) (hne : params ≠ []) :
    (s.tpOpen = true → FairFor 4 s → CommandCompletes i (opcodeCalls s.cfg (opcodeOf k) ++ dataCalls s.cfg params)
        (!s.cfg.dcCommandLevel) s) ∧
      (s.tpOpen = false → exec i s = .next (errorState .io (opcodeOf k) s)) := by
  subst hp
  have hgroups : groupsRequested s i = some (some (groupsOf s.cfg k)) := by rw [hg, encode, if_pos hv]
  refine ⟨fun ho hfair => ?_, fun ho => ?_⟩
  · exact command_runs hfair hi hgroups ho (emission_params hne) (effects_opcode_data _ _ _)
  · rw [← hcode]
    exact command_closed h.noError h.notBusy hi hgroups ho

/-- An invalid panel command, requested in a ready state, is a ValidationError (60_exceptions.md R249). -/
theorem rejects_of_invalid {s : State} {i : Instr} (k : Command) (h : Ready s) (hi : i ≠ .stop)
    (hg : groupsRequested s i = some (encode s.cfg k)) (hv : validCommand s.cfg k = false) :
    exec i s = .next (errorState .validation (encodeOp i) s) := by
  refine command_invalid h.noError h.notBusy hi ?_
  rw [hg, encode, if_neg (by simp [hv])]

/-! ### setGamma and setColorMode -/

/-- A curve that is none of the four has no code (41_commands_param.md R143). -/
theorem gammaCode_eq_none (t : GammaTable) {curve : Byte} (h10 : curve ≠ 10) (h18 : curve ≠ 18) (h22 : curve ≠ 22)
    (h25 : curve ≠ 25) : gammaCode t curve = none := by
  unfold gammaCode
  split
  case h_1 heq => exact absurd (BitVec.eq_of_toNat_eq heq) h10
  case h_2 heq => exact absurd (BitVec.eq_of_toNat_eq heq) h18
  case h_3 heq => exact absurd (BitVec.eq_of_toNat_eq heq) h22
  case h_4 heq => exact absurd (BitVec.eq_of_toNat_eq heq) h25
  case h_5 => rfl

/-- A depth that is none of the three has no code (41_commands_param.md R165). -/
theorem colorCode_eq_none {bpp : Byte} (h12 : bpp ≠ 12) (h16 : bpp ≠ 16) (h18 : bpp ≠ 18) : colorCode bpp = none := by
  unfold colorCode
  split
  case h_1 heq => exact absurd (BitVec.eq_of_toNat_eq heq) h12
  case h_2 heq => exact absurd (BitVec.eq_of_toNat_eq heq) h16
  case h_3 heq => exact absurd (BitVec.eq_of_toNat_eq heq) h18
  case h_4 => rfl

/-- Settles O13: the four curves make the command valid with their code as its parameter, and no other curve does. -/
theorem setGammaSendsTheCurveCode : Obligations.SetGammaSendsTheCurveCode := by
  intro s h
  refine ⟨fun code hcurve => ?_, fun h10 h18 h22 h25 => ?_⟩
  · have hcode := gammaCode_of_curve hcurve
    exact sendsParams_of_valid (.setGamma s.regs.argCurve) h nofun rfl rfl (by simp [validCommand, hcode])
      (by simp [paramBytes, hcode]) (List.cons_ne_nil code [])
  · have hnone := gammaCode_eq_none s.cfg.gamma h10 h18 h22 h25
    exact rejects_of_invalid (.setGamma s.regs.argCurve) h nofun rfl (by simp [validCommand, hnone])

/-- Settles O19: the three depths make the command valid with their code as its parameter, and no other depth does. -/
theorem setColorModeSendsTheCode : Obligations.SetColorModeSendsTheCode := by
  intro s h
  refine ⟨fun code hbpp => ?_, fun h12 h16 h18 => ?_⟩
  · have hcode := colorCode_of_bpp hbpp
    exact sendsParams_of_valid (.setColorMode s.regs.argBpp) h nofun rfl rfl (by simp [validCommand, hcode])
      (by simp [paramBytes, hcode]) (List.cons_ne_nil code [])
  · have hnone := colorCode_eq_none h12 h16 h18
    exact rejects_of_invalid (.setColorMode s.regs.argBpp) h nofun rfl (by simp [validCommand, hnone])

/-! ### The ranges -/

/-- A range out of bounds or with its end before its begin is invalid (41_commands_param.md R144). -/
theorem validRange_eq_false {first last : Half} {n : Nat}
    (h : n < first.toNat ∨ n < last.toNat ∨ last.toNat < first.toNat) : validRange first last n = false := by
  simp only [validRange, Bool.and_eq_false_iff, decide_eq_false_iff_not]
  omega

/-- Settles O14: the command is valid exactly for the valid ranges of the panel's width. -/
theorem setColumnRangeSendsTheRange : Obligations.SetColumnRangeSendsTheRange := by
  intro s h
  refine ⟨fun ⟨_, hlast, hle⟩ => ?_, fun hbad => ?_⟩
  · exact sendsParams_of_valid (.setColumnRange _ _) h nofun rfl rfl (validRange_of_le hlast hle) rfl nofun
  · exact rejects_of_invalid (.setColumnRange _ _) h nofun rfl (validRange_eq_false hbad)

/-- Settles O15: the command is valid exactly for the valid ranges of the panel's height. -/
theorem setRowRangeSendsTheRange : Obligations.SetRowRangeSendsTheRange := by
  intro s h
  refine ⟨fun ⟨_, hlast, hle⟩ => ?_, fun hbad => ?_⟩
  · exact sendsParams_of_valid (.setRowRange _ _) h nofun rfl rfl (validRange_of_le hlast hle) rfl nofun
  · exact rejects_of_invalid (.setRowRange _ _) h nofun rfl (validRange_eq_false hbad)

/-! ### writeMemory -/

/-- The payload is as long as `ARG_LEN` says (41_commands_param.md R150). -/
theorem length_payload (s : State) : s.payload.length = s.regs.argLen.toNat := by
  simp [State.payload, State.readRange]

theorem payload_eq_nil_iff (s : State) : s.payload = [] ↔ s.regs.argLen = 0 := by
  rw [← List.length_eq_zero_iff, length_payload]
  exact BitVec.toNat_inj (y := 0)

/-- writeMemory asks for nothing when its payload leaves FB (41_commands_param.md R150). -/
theorem groupsRequested_writeMemory_none {s : State} (h : s.cfg.fbCap < s.regs.argAddr.toNat + s.regs.argLen.toNat) :
    groupsRequested s .writeMemory = some none := by
  have hfits : s.payloadFits = false := by simpa [State.payloadFits] using h
  simp only [groupsRequested, hfits, Bool.false_eq_true, if_false]

/-- Settles O16: a payload that fits is the parameter, an empty one makes a command without parameters, and one that
leaves FB makes none. -/
theorem writeMemorySendsThePayload : Obligations.WriteMemorySendsThePayload := by
  intro s h
  refine ⟨fun hfit => ?_, fun hover => ?_⟩
  · have hg := groupsRequested_writeMemory hfit
    refine ⟨fun ho hlen hfair => ?_, fun ho hlen hfair => ?_, fun ho => ?_⟩
    · have hempty : paramBytes s.cfg (.writeMemory s.payload) = [] := (payload_eq_nil_iff s).2 hlen
      exact (sendsOpcode_of_plain (i := .writeMemory) (.writeMemory s.payload) h nofun rfl hg hempty).1 ho hfair
    · have hne : s.payload ≠ [] := mt (payload_eq_nil_iff s).1 hlen
      exact (sendsParams_of_valid (i := .writeMemory) (.writeMemory s.payload) h nofun rfl hg rfl rfl hne).1 ho hfair
    · exact command_closed h.noError h.notBusy nofun hg ho
  · exact command_invalid h.noError h.notBusy nofun (groupsRequested_writeMemory_none hover)

/-! ### setPalette -/

/-- The command's check is no weaker than the limits on the bytes of PAL (41_commands_param.md R157). -/
theorem paletteOk_of_validCommand {s : State} (h : validCommand s.cfg s.paletteCommand = true) : paletteOk s := by
  simpa [paletteOk, State.paletteCommand, validCommand, State.readRange, redBlueOk, greenOk, and_assoc] using h

/-- Settles O17: the command is valid exactly within the limits, and its parameters are PAL in address order. -/
theorem setPaletteSendsThePalette : Obligations.SetPaletteSendsThePalette := by
  intro s h
  refine ⟨fun hpal => ?_, fun hpal => ?_⟩
  · exact sendsParams_of_valid s.paletteCommand h nofun rfl rfl (validCommand_palette hpal) (paramBytes_palette s)
      (by simp)
  · have hv : validCommand s.cfg s.paletteCommand = false :=
      Bool.eq_false_iff.2 (mt paletteOk_of_validCommand hpal)
    exact rejects_of_invalid s.paletteCommand h nofun rfl hv

/-! ### setAddressMode -/

/-- No admissible table has a flag at bit 0 or bit 1 (41_commands_param.md R161). -/
theorem getLsbD_addressByte_low {t : AddrBits} (h : t.wf = true) (f : AddressFlags) {j : Nat} (hj : j < 2) :
    (addressByte t f).getLsbD j = false := by
  obtain ⟨hnodup, hrange⟩ := flagsAt_of_wf h f
  rw [addressByte_eq_flagByte, getLsbD_flagByte hnodup (by omega), List.any_eq_false]
  intro p hp hset
  have hbit : p.2 = j := by simpa using (Bool.and_eq_true_iff.1 hset).2
  have hlow := (hrange p hp).1
  omega

/-- The six positions of an admissible table are the bits 2 to 7, each once (41_commands_param.md R161). -/
theorem positions_perm {t : AddrBits} (h : t.wf = true) (f : AddressFlags) :
    ((flagsAt t f).map Prod.snd).Perm [2, 3, 4, 5, 6, 7] := by
  obtain ⟨hnodup, hrange⟩ := flagsAt_of_wf h f
  have hsub : (flagsAt t f).map Prod.snd ⊆ [2, 3, 4, 5, 6, 7] := by
    intro k hk
    obtain ⟨p, hp, rfl⟩ := List.mem_map.1 hk
    have hbounds := hrange p hp
    simp only [List.mem_cons, List.not_mem_nil, or_false]
    omega
  exact (hnodup.subperm hsub).perm_of_length_le le_rfl

/-- All six flags together fill the bits 2 to 7 (41_commands_param.md R161). -/
theorem addressByte_all {t : AddrBits} (h : t.wf = true) :
    addressByte t ⟨true, true, true, true, true, true⟩ = 0xFC := by
  have hsum := ((positions_perm h ⟨true, true, true, true, true, true⟩).map (2 ^ ·)).sum_eq
  simp only [flagsAt, List.map_cons, List.map_nil, List.sum_cons, List.sum_nil, Nat.add_zero, ← Nat.add_assoc] at hsum
  simp only [addressByte, flagBit, if_true, hsum]
  rfl

/-- Settles O5: a flag that is false adds nothing, so that one alone is its power of two; the six fill the bits 2 to 7,
and the flags read back. -/
theorem addressByteHasEachFlagAtItsBit : Obligations.AddressByteHasEachFlagAtItsBit := by
  intro t h
  have hlow : ∀ f, (addressByte t f).getLsbD 0 = false ∧ (addressByte t f).getLsbD 1 = false := fun f =>
    ⟨getLsbD_addressByte_low h f (by decide), getLsbD_addressByte_low h f (by decide)⟩
  refine ⟨?_, ?_, ?_, ?_, ?_, ?_, ?_, addressByte_all h, fun f => ⟨addressFlags_addressByte h f, hlow f⟩⟩
  all_goals simp [addressByte, flagBit]

/-- Settles O18: the command is always valid and its parameter is the flags' byte; a production configuration has the
default table, which is admissible, so that each flag reads back at its bit of 41_commands_param.md R160. -/
theorem setAddressModeSendsTheFlags : Obligations.SetAddressModeSendsTheFlags := by
  intro s h
  obtain ⟨hruns, hcloses⟩ :=
    sendsParams_of_valid (i := .setAddressMode) (.setAddressMode (latchFlags s.regs.argFlags)) h nofun rfl rfl rfl rfl
      (List.cons_ne_nil _ [])
  refine ⟨hruns, hcloses, fun hprod k hk => ?_⟩
  have hwf : AddrBits.default.wf = true := by decide
  have hread := addressFlags_addressByte hwf (latchFlags s.regs.argFlags)
  rw [hprod.addrBit]
  interval_cases k
  · exact getLsbD_addressByte_low hwf _ (by decide)
  · exact getLsbD_addressByte_low hwf _ (by decide)
  · exact congrArg AddressFlags.rgbInverse hread
  · exact congrArg AddressFlags.columnRefreshInverse hread
  · exact congrArg AddressFlags.rowColumnSwap hread
  · exact congrArg AddressFlags.rowRefreshInverse hread
  · exact congrArg AddressFlags.columnInverse hread
  · exact congrArg AddressFlags.rowInverse hread

end Sys2Proof.Machine
end

section
/-! SCALER and PACKER: the bilinear interpolation as a weighted mean of four samples, RESAMPLE's check, and its run over
the raster of the destination frame (42_scaler.md R170 to R182, 43_packer.md R191 to R194). -/

namespace Sys2Proof.Machine

/-! ### The weights -/

/-- The weights of the four neighbours are products of complementary distances, so they sum to `D`
(42_scaler.md R179). -/
theorem weights_sum {c : Config} (h : c.wf = true) (r col : Nat) :
    w00 c r col + w10 c r col + w01 c r col + w11 c r col = den c := by
  have hx : dX c - xFrac c r + xFrac c r = dX c := Nat.sub_add_cancel (Nat.mod_lt _ (dX_pos h)).le
  have hy : dY c - yFrac c col + yFrac c col = dY c := Nat.sub_add_cancel (Nat.mod_lt _ (dY_pos h)).le
  calc w00 c r col + w10 c r col + w01 c r col + w11 c r col
      = (dX c - xFrac c r + xFrac c r) * (dY c - yFrac c col + yFrac c col) := by
        unfold w00 w10 w01 w11
        ring
    _ = den c := by rw [hx, hy, den]

/-- A sample is a byte (42_scaler.md R178). -/
theorem sample_le (mem : Nat → Byte) (pitch x y ch : Nat) : sample mem pitch x y ch ≤ 255 :=
  Nat.le_of_lt_succ (BitVec.isLt _)

/-- `N` is at most the greatest sample times `D` (42_scaler.md R180). -/
theorem interp_le {c : Config} (h : c.wf = true) (l : Latches) (mem : Nat → Byte) (r col ch : Nat) :
    interp c l mem r col ch ≤ 255 * den c := by
  have bound : ∀ w x y, w * sample mem l.srcPitch.toNat x y ch ≤ w * 255 := fun w x y =>
    Nat.mul_le_mul_left w (sample_le mem _ x y ch)
  calc interp c l mem r col ch
      ≤ w00 c r col * 255 + w10 c r col * 255 + w01 c r col * 255 + w11 c r col * 255 :=
        Nat.add_le_add (Nat.add_le_add (Nat.add_le_add (bound _ _ _) (bound _ _ _)) (bound _ _ _)) (bound _ _ _)
    _ = 255 * den c := by rw [← weights_sum h r col]; ring

/-- `N` is `D` times the value that all four clamped samples share (42_scaler.md R182). -/
theorem interp_of_uniform {c : Config} {l : Latches} {mem : Nat → Byte} {ch k : Nat} (h : c.wf = true)
    (hk : ∀ i j, sample mem l.srcPitch.toNat (clampIndex i l.srcW.toNat) (clampIndex j l.srcH.toNat) ch = k)
    (r col : Nat) : interp c l mem r col ch = den c * k := by
  rw [← weights_sum h r col]
  simp only [interp, hk, Nat.add_mul]

/-- The quantiser divides the denominator out (43_packer.md R194). -/
theorem quant_den_mul {d : Nat} (h : 0 < d) (k : Nat) : quant (d * k) d = (126 * k + 255) / 510 := by
  have hn : 126 * (d * k) + 255 * d = d * (126 * k + 255) := by ring
  rw [quant, hn, Nat.mul_comm 510 d, Nat.mul_div_mul_left _ _ h]

/-- The coordinates in production (42_scaler.md R172, R173). -/
theorem xNum_production {c : Config} (h : c.IsProduction) (r : Nat) : xNum c r = 5247 + 374 * r := by
  simp only [xNum, dX, h.panelH, h.cropLeft, h.cropW]
  omega

theorem yNum_production {c : Config} (h : c.IsProduction) (col : Nat) : yNum c col = 299 * col := by
  simp only [yNum, h.cropTop, h.cropH]
  omega

/-! ### RESAMPLE's check -/

/-- What RESAMPLE checks (42_scaler.md R170). -/
theorem frameValid_iff (c : Config) (l : Latches) : frameValid c l = true ↔
    1 ≤ l.srcW.toNat ∧ 1 ≤ l.srcH.toNat ∧ 4 * l.srcW.toNat ≤ l.srcPitch.toNat ∧
      (l.srcH.toNat - 1) * l.srcPitch.toNat + 4 * l.srcW.toNat ≤ c.srcCap ∧
      (l.argSlot.toNat + 1) * c.frameBytes ≤ c.fbCap := by
  simp only [frameValid, Bool.and_eq_true, decide_eq_true_eq, and_assoc]

/-- The channels of a pixel of the source frame lie below the frame's end (42_scaler.md R178). -/
theorem srcAddr_lt {pitch w h x y : Nat} (hx : x < w) (hy : y < h) (ch : Nat) :
    srcAddr pitch x y ch < (h - 1) * pitch + 4 * w := by
  have hrow : y * pitch ≤ (h - 1) * pitch := Nat.mul_le_mul_right _ (by omega)
  unfold srcAddr
  omega

/-- A ready block starts RESAMPLE, whether the transport is open or not (42_scaler.md R170). -/
theorem exec_resample_ready {s : State} (h : Ready s) : exec .resample s = .next (s.accept 0xE1).startResample :=
  exec_ready (i := .resample) nofun h.noError h.notBusy

/-- A valid RESAMPLE starts at the first pixel (42_scaler.md R170). -/
theorem startResample_valid {s : State} (h : frameValid s.cfg s.regs = true) :
    s.startResample = { s with seq := .resample 0 0, todo := [] } := if_pos h

/-- An invalid RESAMPLE raises ValidationError and does nothing else (42_scaler.md R170). -/
theorem startResample_invalid {s : State} (h : ¬ frameValid s.cfg s.regs = true) :
    s.startResample = s.raise .validation := if_neg h

/-! ### A pixel of the raster -/

/-- A read sees the memory of its name only. -/
theorem readByte_congr {s t : State} {sp : Space} (h : t.mem sp = s.mem sp) (a : Nat) :
    t.readByte sp a = s.readByte sp a := by
  simp only [State.readByte, h]

/-- A pixel stored, with the block at position `q` after it (42_scaler.md R170, 43_packer.md R193). -/
def State.withPixel (r col : Nat) (q : Seq) (s : State) : State :=
  { s with
    fb := (s.storePixel r col).fb
    dp := pixelDatapath s.cfg s.regs (s.readByte .src) r col
    seq := q }

/-- A pixel that is not the last goes on to the next (42_scaler.md R170). -/
theorem pixelStep_next {s : State} {r col r' col' : Nat} (h : nextPixel s.cfg r col = some (r', col')) :
    s.pixelStep r col = s.withPixel r col (.resample r' col') := by
  simp only [State.pixelStep, h]
  rfl

/-- The last pixel ends the operation (42_scaler.md R170). -/
theorem pixelStep_last {s : State} {r col : Nat} (h : nextPixel s.cfg r col = none) :
    s.pixelStep r col = (s.withPixel r col .idle).complete := by
  simp only [State.pixelStep, h]
  rfl

/-- A pixel is a step of the block of its own (10_state.md R24). -/
theorem step_resample {n : Nat} {s : State} {r col : Nat} (hturns : s.undisturbed (n + 1) = true)
    (hb : s.busy = true) (hq : s.seq = .resample r col) (ht : s.todo = []) :
    step s = .next ((s.setScript s.script.tail).pixelStep r col) := by
  rw [step_busy hturns hb, seqStep_internal (by simpa using ht)]
  simp only [State.internalStep, State.setScript_seq, hq]

/-- The index of a pixel lies below the number of pixels. -/
theorem pixelIndex_lt {h w r col : Nat} (hr : r < h) (hc : col < w) : r * w + col < h * w := by
  calc r * w + col < (r + 1) * w := by rw [Nat.add_one_mul]; omega
    _ ≤ h * w := Nat.mul_le_mul_right _ hr

/-- The index of a pixel in the raster determines the pixel. -/
theorem pixel_eq_of_index_eq {w r col r' col' : Nat} (hc : col < w) (hc' : col' < w)
    (h : r * w + col = r' * w + col') : r = r' ∧ col = col' := by
  have hw : 0 < w := by omega
  have split : ∀ {a b : Nat}, b < w → (a * w + b) / w = a ∧ (a * w + b) % w = b := fun hb =>
    (Nat.div_mod_unique hw).2 ⟨by ring, hb⟩
  obtain ⟨hdiv, hmod⟩ := split (a := r) hc
  obtain ⟨hdiv', hmod'⟩ := split (a := r') hc'
  exact ⟨by rw [← hdiv, h, hdiv'], by rw [← hmod, h, hmod']⟩

/-! ### The run over the raster -/

/-- FB of `u` is that of `s` with the pixels of raster index `i` and up stored in the slot (20_memory.md R63,
43_packer.md R193): the addresses below pixel `i` and from the slot's end on read as in `s`. Stated of the pixels still
to come, so that the run is an induction on their number. -/
structure StoredFrom (i : Nat) (s u : State) : Prop where
  pixels : ∀ r < s.cfg.panelH, ∀ col < s.cfg.panelW, i ≤ r * s.cfg.panelW + col → ∀ ch < 3,
    u.readByte .fb (fbAddr s.cfg s.regs.argSlot.toNat r col ch) = pixelByte s.cfg s.regs (s.readByte .src) r col ch
  others : ∀ a, (a < s.regs.argSlot.toNat * s.cfg.frameBytes + 3 * i ∨
    (s.regs.argSlot.toNat + 1) * s.cfg.frameBytes ≤ a) → u.readByte .fb a = s.readByte .fb a

/-- After the last pixel nothing is to be stored. -/
theorem StoredFrom.done {i : Nat} {s : State} (h : i = s.cfg.panelH * s.cfg.panelW) : StoredFrom i s s :=
  ⟨fun _ hr _ hc hi => absurd (pixelIndex_lt hr hc) (by omega), fun _ _ => rfl⟩

/-- One pixel stored, then those after it (43_packer.md R193): the later ones lie above it. -/
theorem StoredFrom.cons {s t u : State} {r col : Nat} (h : StoredFrom (r * s.cfg.panelW + col + 1) t u)
    (hr : r < s.cfg.panelH) (hc : col < s.cfg.panelW) (hcfg : t.cfg = s.cfg) (hregs : t.regs = s.regs)
    (hsrc : t.src = s.src) (hfb : t.fb = (s.storePixel r col).fb) : StoredFrom (r * s.cfg.panelW + col) s u := by
  obtain ⟨hpixels, hothers⟩ := h
  have hreads : t.readByte .src = s.readByte .src := funext (readByte_congr (sp := .src) hsrc)
  have hstored : ∀ a, t.readByte .fb a = (s.storePixel r col).readByte .fb a := readByte_congr (sp := .fb) hfb
  rw [hcfg, hregs] at hpixels hothers
  rw [hreads] at hpixels
  refine ⟨fun r' hr' col' hc' hi ch hch => ?_, fun a ha => ?_⟩
  · rcases Nat.eq_or_lt_of_le hi with heq | hlt
    · obtain ⟨rfl, rfl⟩ := pixel_eq_of_index_eq hc hc' heq
      have hbelow := fbAddr_eq s.cfg s.regs.argSlot.toNat r col ch
      rw [hothers _ (.inl (by omega)), hstored, readByte_storePixel s r col hch]
    · exact hpixels r' hr' col' hc' hlt ch hch
  · have hfirst := fbAddr_eq s.cfg s.regs.argSlot.toNat r col 0
    have hlast := fbAddr_eq s.cfg s.regs.argSlot.toNat r col 2
    have hend := fbAddr_lt_slotEnd s.regs.argSlot.toNat hr hc (ch := 2) (by decide)
    rw [hothers a (by omega), hstored, readByte_storePixel_other s r col a (by omega)]

/-- The state in which RESAMPLE has ended after `n` steps from `s`, with FB and the datapath of `u`. -/
def resampled (n : Nat) (u s : State) : State :=
  { s with
    busy := false
    seq := .idle
    todo := []
    inFlight := none
    fb := u.fb
    dp := u.dp
    script := s.script.drop n }

/-- RESAMPLE runs from any pixel to the end of the raster, a step a pixel (42_scaler.md R170). -/
theorem runs_resample {n : Nat} {s : State} {r col i : Nat} (hturns : s.undisturbed n = true) (hb : s.busy = true)
    (hq : s.seq = .resample r col) (ht : s.todo = []) (hr : r < s.cfg.panelH) (hc : col < s.cfg.panelW)
    (hi : r * s.cfg.panelW + col = i) (hn : i + n = s.cfg.panelH * s.cfg.panelW) :
    ∃ u, Runs n s u ∧ u = resampled n u s ∧ StoredFrom i s u := by
  induction n generalizing s r col i with
  | zero => exact absurd (pixelIndex_lt hr hc) (by omega)
  | succ n ih =>
    subst hi
    have hstep := step_resample hturns hb hq ht
    cases hnext : nextPixel s.cfg r col with
    | none =>
      obtain ⟨hlastRow, hlastCol⟩ := nextPixel_none hnext hr hc
      have hlast : r * s.cfg.panelW + col + 1 = s.cfg.panelH * s.cfg.panelW := by
        rw [← hlastRow, Nat.add_one_mul]
        omega
      obtain rfl : n = 0 := by omega
      rw [pixelStep_last (s := s.setScript s.script.tail) hnext] at hstep
      refine ⟨_, Runs.one hstep, ?_, StoredFrom.cons (.done hlast) hr hc rfl rfl rfl rfl⟩
      rw [resampled, List.drop_one]
      rfl
    | some p =>
      obtain ⟨r', col'⟩ := p
      obtain ⟨hr', hc', hindex⟩ := nextPixel_some hnext hr (by omega)
      rw [pixelStep_next (s := s.setScript s.script.tail) hnext] at hstep
      obtain ⟨u, hruns, hu, hstored⟩ := ih (s := (s.setScript s.script.tail).withPixel r col (.resample r' col'))
        (undisturbed_tail hturns) hb rfl ht hr' hc' (hindex hc) ((Nat.add_right_comm _ 1 n).trans hn)
      refine ⟨u, Runs.succ hstep hruns, ?_, hstored.cons hr hc rfl rfl rfl rfl⟩
      rw [hu, resampled, resampled, ← List.drop_tail]
      rfl

/-! ### The obligations -/

/-- Settles O35: the formula is the model's, and the constants of the production configuration. -/
theorem interpolationFormula : Obligations.InterpolationFormula :=
  ⟨fun _ _ _ _ _ _ => rfl, fun _ r col h => ⟨xNum_production h r, yNum_production h col, den_production h⟩⟩

/-- Settles O37: the weights are complementary products, and each sample is at most 255. -/
theorem weightsSumToTheDenominator : Obligations.WeightsSumToTheDenominator :=
  fun _ l mem r col ch h => ⟨weights_sum h r col, interp_le h l mem r col ch⟩

/-- Settles O38: clamped indices are indices of the frame, so all four samples are `k`, and the quantiser divides the
denominator out. -/
theorem uniformSourceGivesUniformFrame : Obligations.UniformSourceGivesUniformFrame := by
  intro c l mem r col ch k hwf hw hh hk
  have hinterp : interp c l mem r col ch = den c * k :=
    interp_of_uniform hwf (fun i j => hk _ (clampIndex_lt hw) _ (clampIndex_lt hh)) r col
  refine ⟨hinterp, ?_⟩
  rw [pixelByte, hinterp, quant_den_mul (den_pos hwf)]

/-- Settles O39: a clamped pixel lies in the frame, which ends in SRC, and a stored byte in the slot, which ends in
FB. -/
theorem resampleStaysInBounds : Obligations.ResampleStaysInBounds := by
  intro c l _ hvalid
  obtain ⟨hw, hh, -, hsrc, hslot⟩ := (frameValid_iff c l).1 hvalid
  exact ⟨fun i j ch => (srcAddr_lt (clampIndex_lt hw) (clampIndex_lt hh) ch).trans_le hsrc,
    fun r hr col hcol ch hch => (fbAddr_lt_slotEnd _ hr hcol hch).trans_le hslot⟩

/-- Settles O34: each of the five causes contradicts one clause of the check. -/
theorem resampleRejectsBadFrames : Obligations.ResampleRejectsBadFrames := by
  intro s h hbad
  have hinvalid : ¬ frameValid s.cfg s.regs = true := by
    intro hvalid
    obtain ⟨hw, hh, hpitch, hsrc, hslot⟩ := (frameValid_iff s.cfg s.regs).1 hvalid
    rcases hbad with hw0 | hh0 | hpitch' | hsrc' | hslot'
    · simp [hw0] at hw
    · simp [hh0] at hh
    · omega
    · omega
    · omega
  rw [exec_resample_ready h, startResample_invalid (s := s.accept 0xE1) hinvalid, raise_accept _ _ h.noError]

/-- Settles O33: the request starts at pixel (0, 0), and the run over the whole raster leaves FB stored from the
slot's first byte on. -/
theorem resampleStoresTheWholeFrame : Obligations.ResampleStoresTheWholeFrame := by
  intro s h hwf hvalid hturns
  obtain ⟨hW, hH, -⟩ := Config.wf_bounds hwf
  refine ⟨?_, ?_⟩
  · rw [exec_resample_ready h, startResample_valid (s := s.accept 0xE1) hvalid]
    rfl
  · obtain ⟨u, hruns, hu, hpixels, hothers⟩ := runs_resample
      (s := { s with busy := true, runOp := 0xE1, seq := .resample 0 0, todo := [] }) (r := 0) (col := 0)
      hturns rfl rfl rfl (two_pos.trans_le hH) (two_pos.trans_le hW) (by simp) (Nat.zero_add _)
    refine ⟨u, hruns, hu, fun r hr col hcol ch hch => ?_, fun a ha => ?_⟩
    · exact hpixels r hr col hcol (by simp) ch hch
    · exact hothers a (by simpa using ha)

end Sys2Proof.Machine
end

section
/-! PACKER (43_packer.md R191, R192, R195): the quantiser is the floor over the rationals, its bound and order,
the packed byte, and the absence of ties when the denominator is odd. -/

namespace Sys2Proof.Machine

/-! ### The quantiser and the packed byte -/

/-- The quantiser is the rational floor (43_packer.md R191): `N/D * 63/255 + 1/2` is `(126 N + 255 D) / (510 D)`. -/
theorem quant_eq_floor (n : Nat) {d : Nat} (hd : 0 < d) :
    ((quant n d : Nat) : Int) = ⌊(n : Rat) / (d : Rat) * 63 / 255 + 1 / 2⌋ := by
  have hd' : (d : Rat) ≠ 0 := Nat.cast_ne_zero.2 hd.ne'
  have hquotient : (n : Rat) / d * 63 / 255 + 1 / 2 = ((126 * n + 255 * d : Nat) : Rat) / ((510 * d : Nat) : Rat) := by
    push_cast
    field_simp
    ring
  rw [hquotient, Rat.floor_natCast_div_natCast, quant, Int.natCast_ediv]

/-- A value up to 255 quantises to 6 bits (43_packer.md R195). -/
theorem quant_le {n d : Nat} (hd : 0 < d) (h : n ≤ 255 * d) : quant n d ≤ 63 :=
  Nat.le_of_lt_succ ((Nat.div_lt_iff_lt_mul (by omega)).2 (by omega))

/-- The quantiser is monotone in the numerator (43_packer.md R195). -/
theorem quant_mono {n m : Nat} (d : Nat) (h : n ≤ m) : quant n d ≤ quant m d :=
  Nat.div_le_div_right (by omega)

/-- Packing a 6-bit sample does not overflow the byte (43_packer.md R195). -/
theorem pack_toNat {q : Nat} (h : q ≤ 63) : (pack q).toNat = 4 * q := by
  rw [pack, BitVec.toNat_ofNat]
  omega

/-- Bits 7:2 of the packed byte are the sample (43_packer.md R192). -/
theorem pack_high {q : Nat} (h : q ≤ 63) : (pack q).extractLsb' 2 6 = BitVec.ofNat 6 q := by
  apply BitVec.eq_of_toNat_eq
  rw [BitVec.extractLsb'_toNat, pack_toNat h, BitVec.toNat_ofNat, Nat.shiftRight_eq_div_pow]
  omega

/-- Bits 1:0 of the packed byte are zero (43_packer.md R192). -/
theorem pack_low {q : Nat} (h : q ≤ 63) : (pack q).extractLsb' 0 2 = 0 := by
  apply BitVec.eq_of_toNat_eq
  rw [BitVec.extractLsb'_toNat, pack_toNat h, Nat.shiftRight_zero]
  exact Nat.mul_mod_right 4 q

/-- No tie over an odd denominator (43_packer.md R191): the left side is even and the right side odd. -/
theorem no_tie_of_odd {d : Nat} (hd : Odd d) (n k : Nat) : 126 * n ≠ 255 * d * (2 * k + 1) := by
  have hodd : Odd (255 * d * (2 * k + 1)) := ((by decide : Odd 255).mul hd).mul (odd_two_mul_add_one k)
  intro h
  rw [← h, Nat.odd_mul] at hodd
  exact absurd hodd.1 (by decide)

/-! ### The obligation -/

/-- Settles O36: the quantiser's rules and those of the packed byte, and in production the odd denominator 20193. -/
theorem quantiserRoundsToNearest : Obligations.QuantiserRoundsToNearest := by
  refine ⟨fun n d hd => ⟨quant_eq_floor n hd, fun hn => ?_, fun m => quant_mono d⟩, fun c n k hc => ?_⟩
  · have hq := quant_le hd hn
    exact ⟨hq, pack_toNat hq, pack_high hq, pack_low hq⟩
  · rw [den_production hc]
    exact ⟨no_tie_of_odd (by decide) n k, fun hn => by omega⟩

end Sys2Proof.Machine
end

section
/-! STOP, CLOSE and the teardown they share with error entry (44_streamer.md R222, R225, R226): a consumed STOP and an
accepted CLOSE leave one call of `tp.close()` to make, or end at once. -/

namespace Sys2Proof.Machine

/-! ### The call of the teardown -/

/-- A step whose call returns goes on with the rest of the position. -/
theorem seqStep_returned {s t : State} {p : Event} {rest : List Event} (ht : s.todo = p :: rest)
    (hc : s.call p = .returned t) : s.seqStep = t.afterPrimitive rest := by
  unfold State.seqStep
  simp only [ht, hc]

/-- In TEARDOWN the one call is made and returns, whatever is answered, and the block is at rest (44_streamer.md
R225, 10_state.md R45). -/
theorem step_teardown {s : State} (hb : s.busy = true) (hq : s.seq = .teardown) (ht : s.todo = [.closeCh])
    (hf : s.inFlight = none) (hu : s.undisturbed 1 = true) :
    step s = .next (closedState (s.env.next (s.env.nowNs + s.env.reply.dtNs)) s) := by
  rw [step_busy hu hb, seqStep_returned (s := s.setScript s.script.tail) ht (call_close hf)]
  simp only [State.afterPrimitive, State.afterPosition, State.setTodo_seq, called_eq, primEffect, State.setScript_seq,
    hq]
  rfl

/-- The answer to a call moves the clock forward. -/
theorem nowNs_le_next (e : Env) : e.nowNs ≤ (e.next (e.nowNs + e.reply.dtNs)).nowNs := Nat.le_add_right _ _

/-- Settles O32: the call of the teardown ends every operation that comes to it, also error entry. -/
theorem teardownClosesTheTransportOnce : Obligations.TeardownClosesTheTransportOnce := by
  intro s hb hq ht hf hu
  exact ⟨step_teardown hb hq ht hf hu, fun he => if_pos he⟩

/-! ### CLOSE -/

/-- Settles O31: an accepted CLOSE is a teardown. -/
theorem closeTearsDown : Obligations.CloseTearsDown := by
  intro s h
  have hexec : exec .close s = .next (s.accept 0xE4).teardown := exec_ready nofun h.noError h.notBusy
  refine ⟨fun ho hu => ⟨?_, _, nowNs_le_next s.env, Runs.one (step_teardown rfl rfl rfl h.noCall hu)⟩, fun ho => ?_⟩
  · rw [hexec, teardown_open (by simpa using ho), ← h.noCall]
    rfl
  · rw [hexec, teardown_closed (by simpa using ho)]
    simp only [State.complete, State.accept, h.noCall, h.notBusy]

/-! ### STOP -/

/-- Settles O30: the positions split by whether PLAY runs. -/
theorem stopIsLatchedOnlyDuringPlay : Obligations.StopIsLatchedOnlyDuringPlay := by
  intro s he
  refine ⟨fun hq => ?_, fun hq => ?_⟩
  · have hplay : s.seq.isPlay = true := by rcases hq with h | ⟨_, h⟩ | ⟨_, _, h⟩ <;> rw [h] <;> rfl
    rw [exec_stop, if_pos ⟨he, hplay⟩]
  · have hplay : s.seq.isPlay = false := by
      rcases hq with h | h | ⟨_, h⟩ | ⟨_, _, h⟩ | h <;> rw [h] <;> rfl
    rw [exec_stop, if_neg (by simp [hplay])]

/-- PLAY looks at `stop_req` now: at a frame boundary or in the loop over an empty buffer (44_streamer.md R215,
R222). -/
def AtLook (s : State) : Prop := (∃ i, AtBoundary i s) ∨ AtEmptyLoop s

theorem AtLook.running {s : State} (h : AtLook s) : s.busy = true ∧ s.todo = [] ∧ s.inFlight = none := by
  rcases h with ⟨i, h⟩ | h
  · exact ⟨h.running, h.noCalls, h.noCall⟩
  · exact ⟨h.running, h.noCalls, h.noCall⟩

theorem internalStep_boundary {s : State} {i : Nat} (h : AtBoundary i s) : s.internalStep = s.boundary := by
  simp only [State.internalStep, h.position]

theorem internalStep_emptyLoop {s : State} (h : AtEmptyLoop s) : s.internalStep = s.emptyPass := by
  simp only [State.internalStep, h.position, if_true]

/-- A look that finds a stop request consumes it (44_streamer.md R211). -/
theorem internalStep_stopped {s : State} (h : AtLook s) (hs : s.stopReq = true) : s.internalStep = s.stopped := by
  rcases h with ⟨i, h⟩ | h
  · exact (internalStep_boundary h).trans (if_pos hs)
  · exact (internalStep_emptyLoop h).trans (if_pos ⟨h.noFrames, hs⟩)

/-- A pass over an empty buffer without a stop request does nothing (44_streamer.md R215). -/
theorem internalStep_emptyPass {s : State} (h : AtEmptyLoop s) (hs : s.stopReq = false) : s.internalStep = s :=
  (internalStep_emptyLoop h).trans (if_neg fun hn => by simp [hs] at hn)

/-- A step of a running operation that has nothing to call, without a move of the host. -/
theorem step_internal {n : Nat} {s : State} (hu : s.undisturbed (n + 1) = true) (hb : s.busy = true)
    (ht : s.todo = []) : step s = .next (s.setScript s.script.tail).internalStep := by
  rw [step_busy hu hb, seqStep_internal (by simpa using ht)]

theorem AtBoundary.setScript {s : State} {i : Nat} (h : AtBoundary i s) (turns : List Turn) :
    AtBoundary i (s.setScript turns) :=
  ⟨h.running, h.position, h.noCalls, h.noCall⟩

theorem AtEmptyLoop.setScript {s : State} (h : AtEmptyLoop s) (turns : List Turn) : AtEmptyLoop (s.setScript turns) :=
  ⟨h.running, h.position, h.noFrames, h.noCalls, h.noCall⟩

/-- A turn taken leaves PLAY at its look. -/
theorem AtLook.setScript {s : State} (h : AtLook s) (turns : List Turn) : AtLook (s.setScript turns) :=
  h.imp (fun ⟨i, h⟩ => ⟨i, h.setScript turns⟩) fun h => h.setScript turns

/-- Settles O29: the look is a teardown with `stop_req` cleared, whose call is the next step. -/
theorem stopIsConsumedAtTheFrameBoundary : Obligations.StopIsConsumedAtTheFrameBoundary := by
  intro s (h : AtLook s)
  obtain ⟨hb, ht, hf⟩ := h.running
  have consume : ∀ n, s.stopReq = true → s.undisturbed (n + 1) = true →
      step s = .next (s.setScript s.script.tail).stopped := fun n hs hu => by
    rw [step_internal hu hb ht, internalStep_stopped (s := s.setScript s.script.tail) (h.setScript _) hs]
  refine ⟨fun hs ho hu => ?_, fun hs ho hu => ?_, fun hs hloop hu => ?_⟩
  · have hstep : step s = .next { s with
        stopReq := false, seq := .teardown, todo := [.closeCh], script := s.script.tail } := by
      rw [consume 1 hs hu, State.stopped, teardown_open (by simpa using ho), ← hf, ← hb]
      rfl
    refine ⟨hstep, _, nowNs_le_next s.env, ?_⟩
    have hclose := Runs.succ hstep (Runs.one (step_teardown hb rfl rfl hf (undisturbed_tail hu)))
    simpa only [closedState, ht, hf, ← List.drop_one, List.drop_drop] using hclose
  · rw [consume 0 hs hu, State.stopped, teardown_closed (by simpa using ho), State.complete, ← ht, ← hf]
    rfl
  · rw [step_internal hu hb ht, internalStep_emptyPass (hloop.setScript s.script.tail) hs]

end Sys2Proof.Machine
end

section
/-! The initialisation table (44_streamer.md R203 to R207) as OPEN_INIT and PLAY run it, and PLAY up to its first frame
(R211 to R215). -/

namespace Sys2Proof.Machine

/-! ### The initialisation table -/

/-- The state in which the 29 calls of the table have returned, at position `q`: the transport open, the lines driven;
time has passed and turns were taken; nothing else changed (44_streamer.md R204). -/
def State.initialised (q : Seq) (e : Env) (s : State) : State :=
  { s with
    seq := q
    todo := []
    inFlight := none
    trace := s.trace ++ initTrace s.cfg
    tpOpen := true
    linesOut := true
    dc := s.cfg.dcCommandLevel
    rst := true
    env := e
    script := s.script.drop 29 }

/-- What a call of a primitive takes at least (44_streamer.md R207). -/
def Event.pauseNs : Event → Nat
  | .pause ms => 1000000 * ms
  | .openCh _ _ => 0
  | .level _ _ => 0
  | .write _ => 0
  | .sleepUntil _ _ => 0
  | .closeCh => 0

theorem add_pauseNs_le_wakeTime (p : Event) (n : Nat) : n + p.pauseNs ≤ max n (wakeTime p n) := by
  cases p <;> simp only [Event.pauseNs, wakeTime] <;> omega

/-- A list of calls takes at least its pauses. -/
theorem add_pauses_le_earliest (l : List Event) (n : Nat) : n + (l.map Event.pauseNs).sum ≤ earliest n l := by
  induction l generalizing n with
  | nil => exact le_refl n
  | cons p l ih =>
    calc n + ((p :: l).map Event.pauseNs).sum = n + p.pauseNs + (l.map Event.pauseNs).sum := by
          rw [List.map_cons, List.sum_cons, Nat.add_assoc]
      _ ≤ max n (wakeTime p n) + (l.map Event.pauseNs).sum := Nat.add_le_add_right (add_pauseNs_le_wakeTime p n) _
      _ ≤ earliest n (p :: l) := ih _

/-- The three pauses of the table (44_streamer.md R204, R207). -/
theorem pauses_initTrace (c : Config) : ((initTrace c).map Event.pauseNs).sum =
    1000000 * (c.tRstLowMs + c.tRstWaitMs + c.tSwresetWaitMs) := by
  simp only [initTrace, opcodeCalls, dataCalls, List.cons_append, List.nil_append, List.map_cons, List.map_nil,
    List.sum_cons, List.sum_nil, Event.pauseNs]
  omega

/-- The whole table, run by either operation: `mk` is the position of a step, `fin` what follows the last one. -/
theorem runs_table (mk : Nat → Seq) (fin : State → State) (hev : ∀ s k, eventsAt s (mk k) = initEvents s.cfg k)
    (hap : ∀ s k, s.seq = mk k → s.afterPosition = if k < lastInitStep then s.enter (mk (k + 1)) else fin s)
    {s : State} (hb : s.busy = true) (hq : s.seq = mk 0) (ht : s.todo = [.openCh s.cfg.spiHz s.cfg.spiMode])
    (hf : s.inFlight = none) (hu : s.undisturbed 29 = true) (ha : s.env.answersOk 29 = true) :
    ∃ e : Env, s.env.nowNs + 1000000 * (s.cfg.tRstLowMs + s.cfg.tRstWaitMs + s.cfg.tSwresetWaitMs) ≤ e.nowNs ∧
      Runs 29 s (fin (s.initialised (mk 14) e)) := by
  obtain ⟨e, hclock, -, hrun⟩ := runs_init mk fin hev hap 14 0 s (initTrace s.cfg) rfl (initTrace_eq s.cfg).symm hb hq
    ht hf hu ha
  refine ⟨e, (pauses_initTrace s.cfg ▸ add_pauses_le_earliest (initTrace s.cfg) s.env.nowNs).trans hclock, ?_⟩
  rw [State.calledAll, effects_init] at hrun
  exact hrun

/-! ### OPEN_INIT -/

/-- A ready block with the transport closed starts the table at its open (44_streamer.md R203). -/
theorem startOpenInit_closed {s : State} (h : s.tpOpen = false) : s.startOpenInit = s.enter (.init 0) :=
  if_neg (by simp [h])

theorem startOpenInit_open {s : State} (h : s.tpOpen = true) : s.startOpenInit = s.raise .usage := if_pos h

/-- Settles O20: the table run by OPEN_INIT ends the operation; its production events are the general ones at the
production constants. -/
theorem openInitRunsTheTable : Obligations.OpenInitRunsTheTable := by
  intro s h
  have hexec : exec .openInit s = .next (s.accept 0xE0).startOpenInit := exec_ready nofun h.noError h.notBusy
  refine ⟨fun ho hfair => ⟨?_, ?_⟩, fun ho => ?_, fun hc => (congrArg initTrace hc).trans rfl⟩
  · rw [hexec, startOpenInit_closed (by simpa using ho)]
    rfl
  · exact runs_table .init State.complete (fun _ _ => rfl) (fun u k hq => by simp only [State.afterPosition, hq])
      (s := (s.accept 0xE0).enter (.init 0)) rfl rfl rfl h.noCall hfair.quietHost hfair.goodReplies
  · rw [hexec, startOpenInit_open (by simpa using ho), raise_accept _ _ h.noError]

/-! ### The checks of PLAY -/

theorem startPlay_closed {s : State} (h : s.tpOpen = false) : s.startPlay = s.enter .playCheck := if_neg (by simp [h])

theorem startPlay_open {s : State} (h : s.tpOpen = true) : s.startPlay = s.raise .usage := if_pos h

/-- Settles O21: with the transport closed PLAY goes to its checks, with the transport open it raises. -/
theorem playRequestStartsTheChecks : Obligations.PlayRequestStartsTheChecks := by
  intro s h
  have hexec : exec .play s = .next (s.accept 0xE2).startPlay := exec_ready nofun h.noError h.notBusy
  refine ⟨fun ho => ?_, fun ho => ?_⟩
  · rw [hexec, startPlay_closed (by simpa using ho)]
    rfl
  · rw [hexec, startPlay_open (by simpa using ho), raise_accept _ _ h.noError]

theorem playCheck_setScript (c : List Turn) (s : State) : (s.setScript c).playCheck = s.playCheck.setScript c := by
  unfold State.playCheck
  dsimp only
  simp only [apply_ite (State.setScript c)]
  rfl

/-- The checks are one step of the block (log entry 12). -/
theorem step_playCheck {n : Nat} {s : State} (hu : s.undisturbed (n + 1) = true) (hb : s.busy = true)
    (hq : s.seq = .playCheck) (ht : s.todo = []) : step s = .next (s.playCheck.setScript s.script.tail) := by
  rw [step_internal hu hb ht, ← playCheck_setScript]
  simp only [State.internalStep, State.setScript_seq, hq]

/-- `PERIOD_MS` is latched before the checks (44_streamer.md R211). -/
def State.latchPeriod (s : State) : State := { s with periodLatched := s.regs.periodMs }

theorem playCheck_noPeriod {s : State} (h : s.regs.periodMs = 0) : s.playCheck = s.latchPeriod.raise .usage := if_pos h

theorem playCheck_overCapacity {s : State} (hp : s.regs.periodMs ≠ 0) (hcap : s.cfg.fbCap < s.regs.fbLen.toNat) :
    s.playCheck = s.latchPeriod.raise .usage := (if_neg hp).trans (if_pos hcap)

theorem playCheck_brokenFrame {s : State} (hp : s.regs.periodMs ≠ 0) (hcap : s.regs.fbLen.toNat ≤ s.cfg.fbCap)
    (hmul : s.regs.fbLen.toNat % s.cfg.frameBytes ≠ 0) : s.playCheck = s.latchPeriod.raise .corruptInput :=
  (if_neg hp).trans ((if_neg hcap.not_gt).trans (if_pos hmul))

/-- The state that passed the checks: the frames counted, the table about to start (44_streamer.md R211). -/
def State.checked (s : State) : State :=
  State.enter (.playInit 0)
    { s.latchPeriod with nFrames := BitVec.ofNat 32 (s.regs.fbLen.toNat / s.cfg.frameBytes) }

theorem playCheck_passed {s : State} (hp : s.regs.periodMs ≠ 0) (hcap : s.regs.fbLen.toNat ≤ s.cfg.fbCap)
    (hmul : s.regs.fbLen.toNat % s.cfg.frameBytes = 0) : s.playCheck = s.checked :=
  (if_neg hp).trans ((if_neg hcap.not_gt).trans (if_neg (not_not_intro hmul)))

/-- Settles O22: the four ends of the checks; an error entry with the transport closed calls nothing. -/
theorem playChecksInOrder : Obligations.PlayChecksInOrder := by
  intro s hb hq ht _ he hu t
  have hstep := step_playCheck hu hb hq ht
  have herror : ∀ c : ErrClass, (s.latchPeriod.raise c).setScript s.script.tail = errorState c s.runOp t := fun c =>
    congrArg (State.setScript s.script.tail) (raise_eq (s := s.latchPeriod) c he)
  refine ⟨fun hp => ?_, fun hp hcap => ?_, fun hp hcap hmul => ?_, fun ho => ⟨rfl, ?_⟩, fun hc => hc.frameBytes,
    fun hp hcap hmul => ?_⟩
  · rw [hstep, playCheck_noPeriod hp, herror]
  · rw [hstep, playCheck_overCapacity hp hcap, herror]
  · rw [hstep, playCheck_brokenFrame hp hcap hmul, herror]
  · exact if_neg (by simp [t, ho])
  · rw [hstep, playCheck_passed hp hcap hmul]
    rfl

/-! ### PLAY up to its first frame -/

/-- A buffer of whole frames holds none exactly when it is empty (44_streamer.md R213, R215). -/
theorem frameCount_eq_zero_iff {len : Word} {bytes : Nat} (h : len.toNat % bytes = 0) :
    BitVec.ofNat 32 (len.toNat / bytes) = 0 ↔ len = 0 := by
  have hdvd : bytes ∣ len.toNat := Nat.dvd_of_mod_eq_zero h
  have hlt : len.toNat / bytes < 2 ^ 32 := (Nat.div_le_self _ _).trans_lt len.isLt
  rw [← BitVec.toNat_inj, ← BitVec.toNat_inj, BitVec.toNat_ofNat, Nat.mod_eq_of_lt hlt]
  exact ⟨Nat.eq_zero_of_dvd_of_div_eq_zero hdvd, fun h0 => by rw [h0]; exact Nat.zero_div _⟩

/-- Settles O23: the checks, the table, and the clock read as its last call returns. -/
theorem playInitialisesThenCapturesTheClock : Obligations.PlayInitialisesThenCapturesTheClock := by
  intro s h ho hp hcap hmul
  refine ⟨_, (playRequestStartsTheChecks s h.ready).1 ho, ?_⟩
  have hcheck := step_playCheck (n := 29) (s := (s.accept 0xE2).enter .playCheck) h.quietHost rfl rfl rfl
  rw [playCheck_passed (s := (s.accept 0xE2).enter .playCheck) hp hcap hmul] at hcheck
  obtain ⟨e, hclock, htable⟩ := runs_table .playInit (fun u => u.captureNow.toFrames) (fun _ _ => rfl)
    (fun u k hq => by simp only [State.afterPosition, hq])
    (s := ((s.accept 0xE2).enter .playCheck).checked.setScript s.script.tail) rfl rfl rfl h.ready.noCall
    (undisturbed_tail h.quietHost) (answersOk_mono (by omega) h.goodReplies)
  have hrun := Runs.succ hcheck htable
  simp only [State.initialised, State.checked, State.latchPeriod, State.enter, State.captureNow, State.setScript,
    State.accept, State.toFrames, frameCount_eq_zero_iff hmul] at hrun
  refine ⟨e, (Nat.le_add_right _ _).trans hclock, ?_⟩
  rw [← List.drop_tail]
  by_cases hlen : s.regs.fbLen = 0
  · simp only [if_pos hlen] at hrun ⊢
    exact hrun
  · simp only [if_neg hlen] at hrun ⊢
    exact hrun

end Sys2Proof.Machine
end

section
/-! A frame of PLAY (44_streamer.md R216 to R222): the three commands, the deadline's advance, the sleep; and the grid
of deadlines over any number of frames. -/

namespace Sys2Proof.Machine

/-! ### The deadline -/

/-- Settles O27: the milliseconds split into whole seconds and a rest below one second, which carries at most once. -/
theorem deadlineAdvancesByOnePeriod : Obligations.DeadlineAdvancesByOnePeriod := by
  intro sec nsec p h
  refine ⟨advanceDeadline_lt sec p h, ?_⟩
  have hsplit := Nat.div_add_mod p 1000
  unfold advanceDeadline
  dsimp only
  split_ifs <;> dsimp only <;> omega

/-- The deadline one period on (44_streamer.md R219). -/
abbrev State.nextDeadline (s : State) : Nat × Nat := advanceDeadline s.dlSec s.dlNsec.toNat s.periodLatched.toNat

/-- The next deadline in nanoseconds (44_streamer.md R220). -/
def State.nextDeadlineNs (s : State) : Nat := 1000000000 * s.nextDeadline.1 + s.nextDeadline.2

/-- The nanoseconds of the next deadline fit their register (10_state.md R26). -/
theorem toNat_nextDeadline (s : State) : (BitVec.ofNat 30 s.nextDeadline.2).toNat = s.nextDeadline.2 := by
  rw [BitVec.toNat_ofNat]
  exact Nat.mod_eq_of_lt (advanceDeadline_fits _ _ _ s.dlNsec.isLt)

/-! ### Runs of a fair environment -/

/-- If the host makes no move for `n` steps and the environment answers `ok` to `k` calls, the `n` steps make those `k`
calls and lead from `s` to `f e`, where `e` is the environment by then: the clock has not run backwards and is at or
past `due`. -/
def Leads (due n k : Nat) (s : State) (f : Env → State) : Prop :=
  s.undisturbed n = true → s.env.answersOk k = true →
    ∃ e : Env, s.env.nowNs ≤ e.nowNs ∧ due ≤ e.nowNs ∧ (∀ m, s.env.answersOk (k + m) = true → e.answersOk m = true) ∧
      Runs n s (f e)

/-- Fair runs in a row. -/
theorem Leads.trans {due₁ due n₁ n k₁ k : Nat} {s : State} {f g : Env → State} (h : Leads due₁ n₁ k₁ s f)
    (hf : ∀ e, (f e).env = e ∧ (f e).script = s.script.drop n₁) (hg : ∀ e, Leads due n k (f e) g) :
    Leads due (n₁ + n) (k₁ + k) s g := by
  intro hu ha
  obtain ⟨e₁, hclock₁, -, hrest₁, hrun₁⟩ := h (undisturbed_mono (by omega) hu) (answersOk_mono (by omega) ha)
  obtain ⟨henv, hscript⟩ := hf e₁
  obtain ⟨e, hclock, hdue, hrest, hrun⟩ := hg e₁ (undisturbed_drop hu hscript) (henv.symm ▸ hrest₁ k ha)
  rw [henv] at hclock hrest
  refine ⟨e, hclock₁.trans hclock, hdue, fun m hm => hrest m (hrest₁ _ ?_), hrun₁.trans hrun⟩
  rwa [← Nat.add_assoc]

/-! ### One frame -/

/-- The state in which the first calls of a frame, from `s` on, have returned and the block stands at position `q`: the
mode line is at the data level (44_streamer.md R217). -/
def State.inFrame (calls : List Event) (q : Seq) (s : State) (e : Env) : State :=
  { s with
    seq := q
    todo := eventsAt s q
    trace := s.trace ++ calls
    dc := !s.cfg.dcCommandLevel
    inFlight := none
    env := e
    script := s.script.drop calls.length }

theorem eventsAt_inFrame (calls : List Event) (q q' : Seq) (s : State) (e : Env) :
    eventsAt (s.inFrame calls q e) q' = eventsAt s q' := by
  cases q' <;> rfl

theorem inFrame_inFrame (calls calls' : List Event) (q q' : Seq) (s : State) (e : Env) :
    (s.inFrame calls q e).inFrame calls' q' = s.inFrame (calls ++ calls') q' := by
  funext e'
  rw [State.inFrame, eventsAt_inFrame]
  simp only [State.inFrame, List.append_assoc, List.drop_drop, List.length_append]

/-- A command of the frame triple: four calls, then the next phase. -/
theorem leads_command {s : State} {q : Seq} {calls : List Event} {op : Byte} {l : List Byte}
    (hcalls : calls = opcodeCalls s.cfg op ++ dataCalls s.cfg l) (hb : s.busy = true) (ht : s.todo = calls)
    (hf : s.inFlight = none) (hnext : ∀ u : State, u.seq = s.seq → u.afterPosition = u.enter q) :
    Leads 0 4 4 s (s.inFrame calls q) := by
  intro hu ha
  have hlen : calls.length = 4 := by rw [hcalls]; rfl
  have hne : calls ≠ [] := fun h0 => by simp [h0] at hlen
  obtain ⟨e, hclock, hrest, hrun⟩ := runs_calls calls s hne hb ht hf (hlen ▸ hu) (hlen ▸ ha)
  have heffects : effects calls s = { s with dc := !s.cfg.dcCommandLevel } :=
    hcalls ▸ effects_opcode_data s.cfg op l s
  rw [hlen] at hrest hrun
  rw [hnext (s.calledAll calls e _) (effects_keep calls s).2.1, State.calledAll, heffects] at hrun
  refine ⟨e, (le_earliest _ _).trans hclock, Nat.zero_le _, hrest, ?_⟩
  rw [State.inFrame, hlen]
  cases q <;> exact hrun

/-- The state in which, `n` steps from `s`, the calls of frame `i` and after them its sleep have been made: the deadline
is one period on, and PLAY stands at the boundary before the next frame (44_streamer.md R216 to R220). -/
def State.slept (n : Nat) (calls : List Event) (i : Nat) (s : State) (e : Env) : State :=
  { s with
    seq := .playFrame (nextFrame s.nFrames.toNat i) .col
    todo := []
    trace := s.trace ++ calls ++ [.sleepUntil s.nextDeadline.1 s.nextDeadline.2]
    dc := !s.cfg.dcCommandLevel
    frameIdx := BitVec.ofNat 32 (nextFrame s.nFrames.toNat i)
    dlSec := s.nextDeadline.1
    dlNsec := BitVec.ofNat 30 s.nextDeadline.2
    inFlight := none
    env := e
    script := s.script.drop n }

/-- The state in which the deadline has moved on by one period and the sleep until it is to be called (44_streamer.md
R219, R220). -/
def State.advanced (i : Nat) (s : State) : State :=
  { s with
    seq := .playFrame i .sleep
    todo := [.sleepUntil s.nextDeadline.1 s.nextDeadline.2]
    dlSec := s.nextDeadline.1
    dlNsec := BitVec.ofNat 30 s.nextDeadline.2
    script := s.script.tail }

/-- The deadline's advance is a step of its own (44_streamer.md R219; log entry 12). -/
theorem step_advance {n : Nat} {s : State} {i : Nat} (hu : s.undisturbed (n + 1) = true) (hb : s.busy = true)
    (hq : s.seq = .playFrame i .advance) (ht : s.todo = []) : step s = .next (s.advanced i) := by
  rw [step_internal hu hb ht]
  simp only [State.internalStep, hq, State.enter, eventsAt, State.moveDeadline, State.setScript,
    State.advanced, toNat_nextDeadline]

/-- The end of a frame: the deadline's advance is a step, the sleep another; the clock is then at or past the deadline
(44_streamer.md R219, R220). -/
theorem leads_sleep {s : State} {i : Nat} (hb : s.busy = true) (hq : s.seq = .playFrame i .advance) (ht : s.todo = [])
    (hf : s.inFlight = none) (hdc : s.dc = !s.cfg.dcCommandLevel) :
    Leads s.nextDeadlineNs 2 1 s (s.slept 2 [] i) := by
  intro hu ha
  obtain ⟨e, hclock, hrest, hsleep⟩ := runs_calls _ (s.advanced i) (List.cons_ne_nil _ _) hb rfl hf
    (undisturbed_tail hu) ha
  have hwake := le_max_right s.env.nowNs s.nextDeadlineNs
  refine ⟨e, (le_earliest _ _).trans hclock, hwake.trans hclock, hrest, ?_⟩
  have hrun := Runs.succ (step_advance hu hb hq ht) hsleep
  simp only [State.calledAll, effects_cons, effects_nil, primEffect, State.afterPosition, State.advanced,
    State.toBoundary, List.length_singleton, List.drop_tail] at hrun
  rw [State.slept, List.append_nil, ← hdc]
  exact hrun

theorem nextDeadlineNs_inFrame (calls : List Event) (q : Seq) (s : State) (e : Env) :
    (s.inFrame calls q e).nextDeadlineNs = s.nextDeadlineNs := by
  simp only [State.nextDeadlineNs, State.nextDeadline, State.inFrame]

/-- The state in which frame `i` is finished `n` steps from `s`, its commands and its sleep made (44_streamer.md R217 to
R220). -/
abbrev State.frameDone (n i : Nat) (s : State) : Env → State := s.slept n (frameTrace s.cfg (s.frameBytesOf i)) i

/-- The sleep after the commands of a frame finishes it. -/
theorem frameDone_inFrame (q : Seq) (i : Nat) (s : State) (e : Env) :
    (s.inFrame (frameTrace s.cfg (s.frameBytesOf i)) q e).slept 2 [] i = s.frameDone 14 i := by
  funext e'
  simp only [State.frameDone, State.slept, State.inFrame, State.nextDeadline, List.append_nil, List.drop_drop]
  rfl

/-- The twelve calls of a frame are those of its three commands (44_streamer.md R217). -/
theorem frameTrace_eq {s : State} (hc : s.cfg.wf = true) (i : Nat) :
    colEvents s.cfg ++ rowEvents s.cfg ++ memEvents s i = frameTrace s.cfg (s.frameBytesOf i) := by
  rw [colEvents_eq hc, rowEvents_eq hc, memEvents_eq (frameBytes_pos hc), frameTrace]

/-- A frame in progress runs to its end whatever `stop_req` is (44_streamer.md R217 to R220, R222). -/
theorem leads_frame {s : State} {i : Nat} (hc : s.cfg.wf = true) (hb : s.busy = true) (hq : s.seq = .playFrame i .col)
    (ht : s.todo = colEvents s.cfg) (hf : s.inFlight = none) :
    Leads s.nextDeadlineNs 14 13 s (s.frameDone 14 i) := by
  have hcolLength : (colEvents s.cfg).length = 4 := by rw [colEvents_eq hc]; rfl
  have hrowLength : (rowEvents s.cfg).length = 4 := by rw [rowEvents_eq hc]; rfl
  have hcol : Leads 0 4 4 s (s.inFrame (colEvents s.cfg) (.playFrame i .row)) :=
    leads_command (colEvents_eq hc) hb ht hf fun u hu => by simp only [State.afterPosition, hu, hq]
  have hrow : ∀ e, Leads 0 4 4 (s.inFrame (colEvents s.cfg) (.playFrame i .row) e)
      (s.inFrame (colEvents s.cfg ++ rowEvents s.cfg) (.playFrame i .mem)) := fun e => by
    rw [← inFrame_inFrame _ (rowEvents s.cfg) (.playFrame i .row) _ s e]
    exact leads_command (rowEvents_eq hc) hb rfl rfl fun u hu => by rw [State.afterPosition, hu]; rfl
  have hmem : ∀ e, Leads 0 4 4 (s.inFrame (colEvents s.cfg ++ rowEvents s.cfg) (.playFrame i .mem) e)
      (s.inFrame (frameTrace s.cfg (s.frameBytesOf i)) (.playFrame i .advance)) := fun e => by
    rw [← frameTrace_eq hc, ← inFrame_inFrame _ (memEvents s i) (.playFrame i .mem) _ s e]
    exact leads_command (memEvents_eq (frameBytes_pos hc)) hb rfl rfl fun u hu => by rw [State.afterPosition, hu]; rfl
  have hsleep : ∀ e, Leads s.nextDeadlineNs 2 1
      (s.inFrame (frameTrace s.cfg (s.frameBytesOf i)) (.playFrame i .advance) e)
      (s.frameDone 14 i) := fun e => by
    rw [← nextDeadlineNs_inFrame (frameTrace s.cfg (s.frameBytesOf i)) (.playFrame i .advance) s e]
    rw [← frameDone_inFrame (.playFrame i .advance) i s e]
    exact leads_sleep hb rfl rfl rfl rfl
  have hrow' := hcol.trans (fun e => ⟨rfl, by rw [State.inFrame, hcolLength]⟩) hrow
  have hmem' := hrow'.trans (fun e => ⟨rfl, by rw [State.inFrame, List.length_append, hcolLength, hrowLength]⟩) hmem
  exact hmem'.trans (fun e => ⟨rfl, rfl⟩) hsleep

/-- The state that has looked at the boundary and goes on to the column range. -/
def State.looked (s : State) (e : Env) : State :=
  { s with todo := colEvents s.cfg, env := e, script := s.script.drop 1 }

/-- The boundary before a frame, without a stop request, is a step that calls nothing (44_streamer.md R211, R222). -/
theorem step_boundary {n : Nat} {s : State} {i : Nat} (h : AtBoundary i s) (hs : s.stopReq = false)
    (hu : s.undisturbed (n + 1) = true) : step s = .next (s.looked s.env) := by
  have hgo : (s.setScript s.script.tail).boundary = (s.setScript s.script.tail).setTodo (colEvents s.cfg) :=
    if_neg (by simp [hs])
  rw [step_internal hu h.running h.noCalls, internalStep_boundary (h.setScript _), hgo, State.looked, List.drop_one]
  rfl

/-- The look, then the rest of the frame, is the whole frame. -/
theorem frameDone_looked (i : Nat) (s : State) (e : Env) : (s.looked e).frameDone 14 i = s.frameDone 15 i := by
  funext e'
  simp only [State.frameDone, State.slept, State.looked, State.nextDeadline, List.drop_drop]
  rfl

theorem nextDeadlineNs_looked (s : State) (e : Env) : (s.looked e).nextDeadlineNs = s.nextDeadlineNs := by
  simp only [State.nextDeadlineNs, State.nextDeadline, State.looked]

/-- A whole frame, from the boundary before it to the boundary before the next (44_streamer.md R216 to R220). -/
theorem leads_wholeFrame {s : State} {i : Nat} (hc : s.cfg.wf = true) (h : AtBoundary i s) (hs : s.stopReq = false) :
    Leads s.nextDeadlineNs 15 13 s (s.frameDone 15 i) := by
  have hlook : Leads 0 1 0 s s.looked := fun hu _ =>
    ⟨s.env, le_refl _, Nat.zero_le _, fun m hm => Nat.zero_add m ▸ hm, Runs.one (step_boundary h hs hu)⟩
  have hframe : ∀ e, Leads s.nextDeadlineNs 14 13 (s.looked e)
      (s.frameDone 15 i) := fun e => by
    have hrest := leads_frame (s := s.looked e) hc h.running h.position rfl h.noCall
    rw [nextDeadlineNs_looked, frameDone_looked] at hrest
    exact hrest
  exact hlook.trans (fun _ => ⟨rfl, rfl⟩) hframe

/-- Settles O25: the frame from its first call on, in which no step looks at `stop_req`. -/
theorem frameInProgressIsFinished : Obligations.FrameInProgressIsFinished := by
  intro s i hc hb hq ht hf hu ha d
  obtain ⟨e, -, hdue, -, hrun⟩ := leads_frame hc hb hq ht hf hu ha
  refine ⟨e, hdue, ?_⟩
  simp only [hf]
  exact hrun

/-- The events of a frame at the production constants (44_streamer.md R217). -/
theorem frameTrace_production {c : Config} (h : c.IsProduction) (payload : List Byte) :
    frameTrace c payload =
      [.level .dc false, .write [0x2A], .level .dc true, .write [0x00, 0x00, 0x00, 0x7F],
        .level .dc false, .write [0x2B], .level .dc true, .write [0x00, 0x00, 0x00, 0x9F],
        .level .dc false, .write [0x2C], .level .dc true, .write payload] := by
  have hcol : rangeBytes 0 (BitVec.ofNat 16 (128 - 1)) = [0x00, 0x00, 0x00, 0x7F] := by decide
  have hrow : rangeBytes 0 (BitVec.ofNat 16 (160 - 1)) = [0x00, 0x00, 0x00, 0x9F] := by decide
  simp only [frameTrace, opcodeCalls, dataCalls, h.dcCommandLevel, h.panelW, h.panelH, hcol, hrow]
  rfl

/-- Settles O24: the boundary's step, then the frame. -/
theorem frameTripleThenSleep : Obligations.FrameTripleThenSleep := by
  intro s i hc h hs _ hu ha d
  refine ⟨?_, fun hprod => frameTrace_production hprod _⟩
  obtain ⟨e, hclock, hdue, -, hrun⟩ := leads_wholeFrame hc h hs hu ha
  refine ⟨e, hclock, hdue, ?_⟩
  simp only [h.noCalls, h.noCall]
  exact hrun

/-! ### The grid of deadlines -/

theorem sleepDeadlines_append (a b : List Event) : sleepDeadlines (a ++ b) = sleepDeadlines a ++ sleepDeadlines b := by
  induction a with
  | nil => rfl
  | cons p a ih => cases p <;> simp [sleepDeadlines, ih]

/-- From the boundary `s` before frame `i` PLAY has come to the next boundary `u`: one period on, with one sleep made,
until the deadline of `u` (44_streamer.md R219 to R221). -/
structure FrameOn (i : Nat) (s u : State) : Prop where
  boundary : AtBoundary (nextFrame s.nFrames.toNat i) u
  config : u.cfg = s.cfg
  stopReq : u.stopReq = s.stopReq
  nFrames : u.nFrames = s.nFrames
  period : u.periodLatched = s.periodLatched
  nanoseconds : u.dlNsec.toNat < 1000000000
  deadline : u.deadlineNs = s.deadlineNs + 1000000 * s.periodLatched.toNat
  sleeps : sleepDeadlines u.trace = sleepDeadlines s.trace ++ [u.deadlineNs]
  script : u.script = s.script.drop 15

/-- A whole frame makes one sleep, at the deadline one period on, however long it took (44_streamer.md R221). -/
theorem frameOn_frameDone {s : State} {i : Nat} (h : AtBoundary i s) (hd : s.dlNsec.toNat < 1000000000) (e : Env) :
    FrameOn i s (s.frameDone 15 i e) := by
  obtain ⟨hlt, hperiod⟩ := deadlineAdvancesByOnePeriod s.dlSec s.dlNsec.toNat s.periodLatched.toNat hd
  have hnsec := toNat_nextDeadline s
  have hdeadline : (s.frameDone 15 i e).deadlineNs =
      1000000000 * s.nextDeadline.1 + s.nextDeadline.2 := congrArg (1000000000 * s.nextDeadline.1 + ·) hnsec
  refine ⟨⟨h.running, rfl, rfl, rfl⟩, rfl, rfl, rfl, rfl, hnsec.trans_lt hlt, hdeadline.trans hperiod, ?_, rfl⟩
  rw [hdeadline]
  show sleepDeadlines (s.trace ++ frameTrace s.cfg (s.frameBytesOf i) ++ [_]) = _
  rw [sleepDeadlines_append, sleepDeadlines_append]
  exact congrArg (· ++ _) (List.append_nil _)

theorem nextFrame_eq_mod {n i : Nat} (h : i < n) : nextFrame n i = (i + 1) % n := by
  unfold nextFrame
  split_ifs with hlt
  · exact (Nat.mod_eq_of_lt hlt).symm
  · rw [show i + 1 = n by omega, Nat.mod_self]

/-- The grid from its first point on. -/
theorem grid_succ (d p n : Nat) : (List.range (n + 1)).map (fun k => d + (k + 1) * p) =
    (d + p) :: (List.range n).map (fun k => d + p + (k + 1) * p) := by
  have hshift : (fun k => d + (k + 1) * p) ∘ Nat.succ = fun k => d + p + (k + 1) * p := by
    funext k
    simp only [Function.comp_apply, Nat.succ_eq_add_one]
    ring
  rw [List.range_succ_eq_map, List.map_cons, List.map_map, hshift, Nat.zero_add, Nat.one_mul]

/-- Settles O28: by induction on the number of frames, a whole frame before the rest. -/
theorem deadlinesStayOnTheGrid : Obligations.DeadlinesStayOnTheGrid := by
  intro n
  induction n with
  | zero =>
    intro s i _ h _ hi _ _ _
    exact ⟨s, Runs.zero s, by rwa [Nat.add_zero, Nat.mod_eq_of_lt hi], by simp, by simp⟩
  | succ n ih =>
    intro s i hc h hs hi hd hu ha
    rw [Nat.mul_succ, Nat.add_comm] at hu ha
    obtain ⟨e, -, -, hrest, hframe⟩ := leads_wholeFrame hc h hs (undisturbed_mono (by omega) hu)
      (answersOk_mono (by omega) ha)
    have hon := frameOn_frameDone h hd e
    have hanswers : (s.frameDone 15 i e).env.answersOk (13 * n) = true := hrest _ ha
    generalize s.frameDone 15 i e = u at hframe hon hanswers
    obtain ⟨t, hruns, hat, hdeadline, hsleeps⟩ := ih u (nextFrame s.nFrames.toNat i) (hon.config ▸ hc) hon.boundary
      (hon.stopReq.trans hs) (by rw [hon.nFrames]; exact nextFrame_lt hi) hon.nanoseconds
      (undisturbed_drop hu hon.script) hanswers
    rw [hon.nFrames, nextFrame_eq_mod hi, Nat.mod_add_mod, Nat.add_assoc, Nat.add_comm 1] at hat
    rw [hon.period, hon.deadline] at hdeadline hsleeps
    refine ⟨t, ?_, hat, ?_, ?_⟩
    · rw [Nat.mul_succ, Nat.add_comm]
      exact hframe.trans hruns
    · rw [hdeadline]
      ring
    · rw [hsleeps, hon.sleeps, hon.deadline, grid_succ, List.append_assoc, List.singleton_append]

end Sys2Proof.Machine
end

section
/-! `stop_req` decides something at its two looks only (44_streamer.md R215, R222): every other operation of the block
commutes with a change of it, but for error entry, which clears it. -/

namespace Sys2Proof.Machine

/-- The state with another stop request. -/
def State.setStop (v : Bool) (s : State) : State := { s with stopReq := v }

/-- The two states differ in `stop_req` at most. -/
def SameButStop (s t : State) : Prop := ∃ d, t = s.setStop d

/-! ### What leaves the stop request as it is -/

theorem enter_setStop (q : Seq) (v : Bool) (s : State) : (s.setStop v).enter q = (s.enter q).setStop v := by
  cases q <;> rfl

theorem toFrames_setStop (v : Bool) (s : State) : (s.setStop v).toFrames = s.toFrames.setStop v := by
  unfold State.toFrames
  rw [apply_ite (State.setStop v)]
  rfl

theorem pixelStep_setStop (r col : Nat) (v : Bool) (s : State) :
    (s.setStop v).pixelStep r col = (s.pixelStep r col).setStop v := by
  cases hn : nextPixel s.cfg r col with
  | none => rw [pixelStep_last hn, pixelStep_last (s := s.setStop v) hn]; rfl
  | some p => rw [pixelStep_next hn, pixelStep_next (s := s.setStop v) hn]; rfl

theorem afterPosition_setStop (v : Bool) (s : State) : (s.setStop v).afterPosition = s.afterPosition.setStop v := by
  have hv : (s.setStop v).seq = s.seq := rfl
  cases hq : s.seq <;> simp only [State.afterPosition, hv, hq]
  case init k => split_ifs; exacts [enter_setStop _ v s, rfl]
  case playInit k => split_ifs; exacts [enter_setStop _ v s, toFrames_setStop v s.captureNow]
  case playFrame i ph => cases ph <;> rfl
  all_goals rfl

theorem afterPrimitive_setStop (rest : List Event) (v : Bool) (s : State) :
    (s.setStop v).afterPrimitive rest = (s.afterPrimitive rest).setStop v := by
  cases rest with
  | nil => exact afterPosition_setStop v (s.setTodo [])
  | cons p ps => rfl

theorem primEffect_setStop (p : Event) (v : Bool) (s : State) :
    primEffect p (s.setStop v) = (primEffect p s).setStop v := by
  cases p with
  | level line w => cases line <;> rfl
  | _ => rfl

theorem beginCall_setStop (p : Event) (v : Bool) (s : State) :
    (s.setStop v).beginCall p = (s.beginCall p).setStop v := by
  unfold State.beginCall
  rw [show (s.setStop v).inFlight = s.inFlight from rfl]
  cases s.inFlight <;> rfl

/-! ### A step of the running operation -/

theorem playCheck_setStop (v : Bool) (s : State) : SameButStop s.playCheck (s.setStop v).playCheck := by
  have hr : (s.setStop v).regs = s.regs := rfl
  have hc : (s.setStop v).cfg = s.cfg := rfl
  unfold State.playCheck
  dsimp only
  rw [hr, hc]
  split_ifs
  · exact ⟨false, rfl⟩
  · exact ⟨false, rfl⟩
  · exact ⟨false, rfl⟩
  · exact ⟨v, rfl⟩

/-- PLAY stands where it looks at `stop_req`: a frame boundary, or the loop over an empty buffer (44_streamer.md R215,
R222; log entry 18). -/
def Seq.looks (q : Seq) : Prop := (∃ i, q = .playFrame i .col) ∨ q = .playInit lastInitStep

theorem internalStep_setStop {s : State} (h : ¬ s.seq.looks) (v : Bool) :
    SameButStop s.internalStep (s.setStop v).internalStep := by
  have hv : (s.setStop v).seq = s.seq := rfl
  cases hq : s.seq <;> simp only [State.internalStep, hv, hq]
  case init k => exact ⟨v, enter_setStop _ v s⟩
  case resample r col => exact ⟨v, pixelStep_setStop r col v s⟩
  case playCheck => exact playCheck_setStop v s
  case playInit k =>
    have hk : k ≠ lastInitStep := fun hk => h (.inr (hk ▸ hq))
    rw [if_neg hk, if_neg hk]
    exact ⟨v, enter_setStop _ v s⟩
  case playFrame i ph =>
    cases ph
    case col => exact absurd (.inl ⟨i, hq⟩) h
    all_goals exact ⟨v, rfl⟩
  all_goals exact ⟨v, rfl⟩

/-- A call has the same outcome with or without a stop request. -/
theorem seqStep_setStop {s : State} (h : s.seq.looks → s.todo ≠ []) (v : Bool) :
    SameButStop s.seqStep (s.setStop v).seqStep := by
  have hv : (s.setStop v).todo = s.todo := rfl
  cases ht : s.todo with
  | nil =>
    rw [seqStep_internal ht, seqStep_internal (hv.trans ht)]
    exact internalStep_setStop (fun hq => h hq ht) v
  | cons p rest =>
    have hw : ((s.beginCall p).setStop v).inFlight = (s.beginCall p).inFlight := rfl
    have he : (s.setStop v).env = s.env := rfl
    unfold State.seqStep State.call
    simp only [hv, ht, beginCall_setStop, hw, he]
    cases answerOf p s.env.reply.kind _ with
    | pending => exact ⟨v, rfl⟩
    | returned =>
      refine ⟨v, ?_⟩
      simp only
      rw [← afterPrimitive_setStop, ← primEffect_setStop]
      rfl
    | failed k => exact ⟨false, rfl⟩

/-! ### Requests and host moves -/

/-- What starts an accepted operation starts it with or without a stop request, or raises, which clears it
(60_exceptions.md R245). -/
theorem startOf_setStop (s : State) (i : Instr) (v : Bool) (t : State) :
    SameButStop (startOf s i t) (startOf s i (t.setStop v)) := by
  have hopen : (t.setStop v).tpOpen = t.tpOpen := rfl
  cases hg : groupsRequested s i with
  | some gs =>
    simp only [startOf, hg]
    cases gs with
    | none => exact ⟨false, rfl⟩
    | some gs =>
      unfold State.startCommand
      dsimp only
      rw [hopen]
      split_ifs; exacts [⟨v, rfl⟩, ⟨false, rfl⟩]
  | none =>
    simp only [startOf, hg]
    cases i
    case openInit =>
      unfold State.startOpenInit
      dsimp only
      rw [hopen]
      split_ifs; exacts [⟨false, rfl⟩, ⟨v, rfl⟩]
    case play =>
      unfold State.startPlay
      dsimp only
      rw [hopen]
      split_ifs; exacts [⟨false, rfl⟩, ⟨v, rfl⟩]
    case resample =>
      have hvalid : frameValid (t.setStop v).cfg (t.setStop v).regs = frameValid t.cfg t.regs := rfl
      unfold State.startResample
      dsimp only
      rw [hvalid]
      split_ifs; exacts [⟨v, rfl⟩, ⟨false, rfl⟩]
    all_goals exact ⟨v, rfl⟩

theorem request_setStop {start : State → State} (hstart : ∀ v t, SameButStop (start t) (start (t.setStop v)))
    (code : Byte) (v : Bool) (s : State) : SameButStop (s.request code start) ((s.setStop v).request code start) := by
  have he : (s.setStop v).err = s.err := rfl
  have hb : (s.setStop v).busy = s.busy := rfl
  unfold State.request
  rw [he, hb]
  split_ifs
  · exact ⟨v, rfl⟩
  · exact ⟨v, rfl⟩
  · exact hstart v (s.accept code)

/-- A request is decoded and runs whatever the stop request is; STOP sets it (44_streamer.md R222). -/
theorem issue_setStop {s t : State} {code : Byte} (v : Bool) (h : s.issue code = .next t) :
    ∃ d, (s.setStop v).issue code = .next (t.setStop d) := by
  unfold State.issue at h ⊢
  cases hd : decodeOp code with
  | rejected why =>
    simp only [hd, Host.Outcome.next.injEq] at h ⊢
    subst h
    exact request_setStop (fun _ _ => ⟨false, rfl⟩) code v s
  | instr i =>
    simp only [hd] at h ⊢
    by_cases hi : i = .stop
    · subst hi
      rw [exec_stop, Host.Outcome.next.injEq] at h
      rw [exec_stop, ← h]
      have he : (s.setStop v).err = s.err := rfl
      have hq : (s.setStop v).seq = s.seq := rfl
      rw [he, hq]
      split_ifs; exacts [⟨true, rfl⟩, ⟨v, rfl⟩]
    · have hsame : startOf (s.setStop v) i = startOf s i := by cases i <;> rfl
      rw [exec_request hi, Host.Outcome.next.injEq] at h
      rw [exec_request hi, hsame, ← h]
      obtain ⟨d, hd⟩ := request_setStop (startOf_setStop s i) (encodeOp i) v s
      exact ⟨d, congrArg _ hd⟩

/-- A turn of the block away from the two looks. -/
theorem blockTurn_setStop {s t : State} (hlook : s.seq.looks → s.todo ≠ []) (v : Bool) (h : s.blockTurn = .next t) :
    ∃ d, (s.setStop v).blockTurn = .next (t.setStop d) := by
  have hb : (s.setStop v).busy = s.busy := rfl
  have he : (s.setStop v).err = s.err := rfl
  have hheld : (s.setStop v).held = s.held := rfl
  unfold State.blockTurn at h ⊢
  rw [hb, he, hheld]
  split_ifs at h ⊢
  · obtain ⟨d, hd⟩ := seqStep_setStop hlook v
    injection h with h
    exact ⟨d, by rw [hd, h]⟩
  · injection h with h
    exact ⟨v, by rw [h]⟩
  · cases hh : s.held with
    | nil =>
      simp only [hh, Host.Outcome.next.injEq] at h ⊢
      exact ⟨v, by rw [h]⟩
    | cons code rest =>
      simp only [hh] at h ⊢
      exact issue_setStop v h

/-- Of the registers only STATUS shows the stop request (10_state.md R28). -/
theorem readReg_setStop {num : Nat} (h : num ≠ 0x10) (v : Bool) (s : State) :
    (s.setStop v).readReg num = s.readReg num := by
  unfold State.readReg
  split <;> first
    | rfl
    | exact absurd rfl h

/-- A host move other than a read of STATUS does not look at the stop request. -/
theorem hostMove_setStop {m : HostMove} {s t : State} (v : Bool) (hm : m ≠ .readReg 0x10)
    (h : s.hostMove m = .next t) : ∃ d, (s.setStop v).hostMove m = .next (t.setStop d) := by
  have hb : (s.setStop v).busy = s.busy := rfl
  have hc : (s.setStop v).cfg = s.cfg := rfl
  cases m with
  | writeReg num w =>
    simp only [State.hostMove] at h ⊢
    split_ifs at h ⊢
    · exact issue_setStop v h
    · injection h with h
      exact ⟨v, by rw [← h, writeLatch_eq, writeLatch_eq]; rfl⟩
  | readReg num =>
    simp only [State.hostMove, Host.Outcome.next.injEq] at h ⊢
    exact ⟨v, by rw [← h, readReg_setStop fun e => hm (e ▸ rfl)]; rfl⟩
  | writeMem sp a w =>
    simp only [State.hostMove, hb, hc] at h ⊢
    split_ifs at h ⊢
    injection h with h
    exact ⟨v, by rw [← h]; cases sp <;> rfl⟩
  | readMem sp a =>
    simp only [State.hostMove, hc] at h ⊢
    split_ifs at h ⊢
    injection h with h
    exact ⟨v, by rw [← h]; cases sp <;> rfl⟩
  | assertReset =>
    simp only [State.hostMove, Host.Outcome.next.injEq] at h ⊢
    exact ⟨false, by rw [← h]; rfl⟩

/-- Settles O26: whoever makes the turn, away from the two looks the stop request decides nothing. -/
theorem stopRequestIsReadAtTheBoundaryOnly : Obligations.StopRequestIsReadAtTheBoundaryOnly := by
  intro s t v h hread hboundary hloop
  have hlook : s.seq.looks → s.todo ≠ [] := fun hq => hq.elim (fun ⟨i, hi⟩ => hboundary i hi) hloop
  show ∃ d, step (s.setStop v) = .next (t.setStop d)
  have hscript : (s.setStop v).script = s.script := rfl
  unfold step at h ⊢
  rw [hscript]
  cases hs : s.script with
  | nil => exact blockTurn_setStop hlook v (by simpa only [hs] using h)
  | cons turn rest =>
    cases turn with
    | block =>
      have hturn : (s.setScript rest).blockTurn = .next t := by simpa only [hs] using h
      exact blockTurn_setStop (s := s.setScript rest) hlook v hturn
    | host m =>
      have hmove : (s.setScript rest).hostMove m = .next t := by simpa only [hs] using h
      exact hostMove_setStop v (fun e => hread rest (e ▸ hs)) hmove

end Sys2Proof.Machine
end

section
/-! Requests while ERR is not 0 (60_exceptions.md R247). -/

namespace Sys2Proof.Machine

/-- Settles O11: STOP is latched only while ERR is 0, and every other operation is an admission, which a halted block
turns away. -/
theorem haltedTakesNoRequest : Obligations.HaltedTakesNoRequest := by
  intro i s he
  by_cases hi : i = .stop
  · subst hi
    rw [exec_stop, if_neg fun ⟨hzero, _⟩ => he hzero]
  · rw [exec_request hi, request_halted he]

end Sys2Proof.Machine
end

section
/-! The reset input, and a primitive that is never answered (70_reset_and_hazards.md R270, R271, R285). -/

namespace Sys2Proof.Machine

/-! ### Reset -/

/-- An idle block with no request held waits: its turn changes nothing (70_reset_and_hazards.md R270). -/
theorem blockTurn_waits {s : State} (hb : s.busy = false) (hheld : s.held = []) : s.blockTurn = .next s := by
  unfold State.blockTurn
  rw [hb, hheld]
  exact ite_self _

/-- Settles O6: the move is the reset of the state with that move taken off the script; the values are those of the
reset state, which is idle and holds no request. -/
theorem resetInputLeavesTheResetState : Obligations.ResetInputLeavesTheResetState := by
  intro s rest h
  have hstep : step s = .next (s.setScript rest).assertReset := step_host h
  exact ⟨_, hstep, rfl, rfl, rfl, rfl, rfl, rfl, rfl, rfl, rfl, rfl, rfl, rfl, rfl, rfl, rfl, rfl,
    blockTurn_waits rfl rfl⟩

/-! ### A hung primitive -/

/-- Once the answers to come are used up, the one given for ever is the answer. -/
theorem reply_of_replies_nil {e : Env} (h : e.replies = []) : e.reply = e.rest := by
  simp only [Env.reply, h]

/-- The state one unanswered step later: the turn is taken, the call of `p` waits. -/
def State.hung (p : Event) (s : State) : State :=
  (s.setScript s.script.tail).waiting p (s.env.nowNs + s.env.reply.dtNs)

/-- The event of a call is appended when it is made and not again while it is in flight (10_state.md R45). -/
theorem hung_hung_trace (p : Event) (s : State) : ((s.hung p).hung p).trace = (s.hung p).trace := List.append_nil _

section
variable {s : State} {p : Event}
  (hp : (∃ hz mode, p = .openCh hz mode) ∨ (∃ line v, p = .level line v) ∨ (∃ l, p = .write l) ∨ ∃ ms, p = .pause ms)
include hp

/-- Open, level, write and pause do not return before they are answered (10_state.md R45, R47). -/
theorem answerOf_wait (due : Bool) : answerOf p .wait due = .pending := by
  rcases hp with ⟨hz, mode, rfl⟩ | ⟨line, v, rfl⟩ | ⟨l, rfl⟩ | ⟨ms, rfl⟩ <;> rfl

/-- A call of such a primitive without an answer is pending: its event is in the trace once. -/
theorem call_wait (hr : s.env.reply.kind = .wait) :
    s.call p = .pending (s.waiting p (s.env.nowNs + s.env.reply.dtNs)) := by
  unfold State.call
  simp only [hr, answerOf_wait hp, beginCall_setEnv]

/-- A step spent in a call without an answer (70_reset_and_hazards.md R285). -/
theorem step_hung {n : Nat} {rest : List Event} (hb : s.busy = true) (ht : s.todo = p :: rest)
    (hreplies : s.env.replies = []) (hwait : s.env.rest.kind = .wait) (hu : s.undisturbed (n + 1) = true) :
    step s = .next (s.hung p) := by
  have hr : s.env.reply.kind = .wait := (congrArg Reply.kind (reply_of_replies_nil hreplies)).trans hwait
  have htodo : (s.setScript s.script.tail).todo = p :: rest := ht
  have hcall : (s.setScript s.script.tail).call p = .pending (s.hung p) := call_wait hp hr
  rw [step_busy hu hb]
  unfold State.seqStep
  simp only [htodo, hcall]

end

/-- Settles O42, by induction on the number of steps: an unanswered step leads to a state whose call is in flight and
again not answered, from which the other steps append no event. -/
theorem hungPrimitiveHangsTheBlock : Obligations.HungPrimitiveHangsTheBlock := by
  intro n
  induction n with
  | zero =>
    intro s p rest hb ht hp hreplies hwait hu
    exact ⟨s.hung p, Runs.one (step_hung hp hb ht hreplies hwait hu), hb, rfl, rfl, rfl, rfl, rfl⟩
  | succ n ih =>
    intro s p rest hb ht hp hreplies hwait hu
    have hstep : step s = .next (s.hung p) := step_hung hp hb ht hreplies hwait hu
    have hreplies' : (s.hung p).env.replies = [] := congrArg List.tail hreplies
    obtain ⟨t, hrun, hbusy, hseq, htodo, htrace, hstop, herr⟩ :=
      ih (s.hung p) p rest hb ht hp hreplies' hwait (undisturbed_tail hu)
    exact ⟨t, Runs.succ hstep hrun, hbusy, hseq, htodo, htrace.trans (hung_hung_trace p s), hstop, herr⟩

end Sys2Proof.Machine
end
